-- ==== Sys2Proof/Word.lean ====
section
/-! DEFINITION. The words of the G316: bytes of the host port and the link, sixteen-bit counters, and the sixteen flags of a
set of stations (00, Quantities, names and layouts; R20). -/

namespace Sys2Proof

/-- One byte of the host port, of a table or of a window frame (R20, R161). -/
abbrev Byte := BitVec 8

/-- A sixteen-bit field of a frame, a register or a table (R20, R161). -/
abbrev Word16 := BitVec 16

/-- A set of stations, one flag per station number: bit k is station k (R20). -/
abbrev StationSet := BitVec 16

/-- A station number, 0 to 15 (00, Station numbers). -/
abbrev StationNo := Fin 16

/-- A cycle number, which wraps from 65535 to 0; a difference of two is modular (00, Cycle numbers). -/
abbrev CycleNo := BitVec 16

/-- A profile number, 0 to 7; 0 is the parked profile (R154). -/
abbrev ProfileNo := BitVec 3

/-- A proposal sequence, 0 to 15, which wraps (R24). -/
abbrev SequenceNo := BitVec 4

end Sys2Proof
end

