-- ==== Sys2Proof/Syntax.lean ====
section
/-! DEFINITION. The commands of the G316: one constructor for each row of spec/opcode_table.json. An operand is what the
command brings from outside the station (log entry 10); the host commands bring none, because they read their arguments from
the registers (R162, R164). -/

namespace Sys2Proof

/-- A leg of the bridge (R107). -/
inductive Leg where
  | a | b | c
  deriving DecidableEq, Repr

/-- The upper or the lower gate of a leg (R107). -/
inductive Side where
  | upper | lower
  deriving DecidableEq, Repr

/-- The five filtered inputs: FLT0 to FLT3 and TRPn (R132). -/
inductive FilteredInput where
  | flt (input : Fin 4)
  | trpn
  deriving DecidableEq, Repr

/-- A load position of the carrier: position 0, the valley or wrap, or position H, the peak (R104). -/
inductive LoadPosition where
  | valley | peak
  deriving DecidableEq, Repr

/-- The levels of the pins ID0 to ID3, true for high (R153). -/
structure IdPins where
  id0 : Bool
  id1 : Bool
  id2 : Bool
  id3 : Bool
  deriving DecidableEq, Repr

/-- The commands of the block: the rows of spec/opcode_table.json. -/
inductive Instr where
  /-- POWER_ON (R91, R153): RSTn rises with these levels on ID0 to ID3. -/
  | powerOn (ids : IdPins)
  /-- NOP (R165). -/
  | nop
  /-- JOIN (R78). -/
  | join
  /-- LEAVE (R86). -/
  | leave
  /-- RESTART (R87). -/
  | restart
  /-- PROPOSE (R48), arguments in ARG0-ARG2 (R164). -/
  | propose
  /-- HOLD (R165). -/
  | hold
  /-- RELEASE (R165). -/
  | release
  /-- CLEAR (R143). -/
  | clear
  /-- STOP (R142). -/
  | stop
  /-- PUSH (R120), the record in ARG0-ARG7 (R164). -/
  | push
  /-- FLUSH (R121). -/
  | flush
  /-- TREAD (R167), of the entry TIDX of table TSEL. -/
  | tread
  /-- TWRITE (R168), of TDATA0-TDATA7 into the entry TIDX of table TSEL. -/
  | twrite
  /-- RECALL (R165). -/
  | recallResult
  /-- UNKNOWN_COMMAND (R162): a write of this code, 0x0E to 0xFF, to COMMAND. -/
  | unknownCommand (code : Byte)
  /-- REGISTER_WRITE (R161): one byte written to a register address. -/
  | registerWrite (address : BitVec 7) (value : Byte)
  /-- REPORT_READ (R170): a complete eight-byte read of REPORT. -/
  | reportRead
  /-- TIMER_REACHES_L (R7): the cycle timer reaches L, with the line dominant or recessive. -/
  | timerReachesL (dominant : Bool)
  /-- DEFERRED_MARK_START (R7): while DEFERRED, the run ends without being accepted. -/
  | deferredMarkStart
  /-- MARK_DRIVE_END (R7): twelve dominant bit times of the own mark have been driven. -/
  | markDriveEnd
  /-- MARK_ACCEPTED (R8, R10): a dominant run reaches its twelfth bit time; `start` is the cycle timer in the first bit time
  of the run, which is the mark interval (R5, R10). -/
  | markAccepted (start : Nat)
  /-- LINE_DISTURBANCE (R8): a run of twelve or more bit times that began in this window. -/
  | lineDisturbance (window : StationNo)
  /-- MARK_TIMEOUT (R6): the cycle timer reaches 2L with no mark accepted. -/
  | markTimeout
  /-- LONE_START (R84): the elapsed count has reached 4L and the line is recessive. -/
  | loneStart
  /-- OWN_WINDOW_START (R12). -/
  | ownWindowStart
  /-- FRAME_RECEIVED (R28): the bytes assembled in this window, complete. -/
  | frameReceived (window : StationNo) (bytes : List Byte)
  /-- WINDOW_END (R14) of this window. -/
  | windowEnd (window : StationNo)
  /-- LOAD_POINT (R104): the running carrier reaches this load position by advancing. -/
  | loadPoint (position : LoadPosition)
  /-- COMPARE_CROSSING (R111): the advancing carrier reaches this position, and its value crosses a compare value. -/
  | compareCrossing (position : Nat)
  /-- DEAD_TIME_ELAPSED (R112): the dead-time count of this gate of this leg, pending, reaches d. -/
  | deadTimeElapsed (leg : Leg) (gate : Side)
  /-- FILTERED_LEVEL_CHANGE (R132): this input has held the level opposite to its filtered level for 4f + 1 ticks. -/
  | filteredLevelChange (input : FilteredInput)
  /-- CLEAR_SAMPLE (R144): the settle has ended and TRPn is sampled, low or high. -/
  | clearSample (trpnLow : Bool)
  /-- RSTN_LOW (R91): RSTn falls. -/
  | rstnLow
  /-- RECEPTION_ERROR (R15): a framing error, a truncation or a late start in this window. -/
  | receptionError (window : StationNo)
  /-- READBACK_MISMATCH (R13): the first bit read back that differs from the bit sent. -/
  | readbackMismatch
  deriving DecidableEq, Repr

end Sys2Proof
end

