-- ==== Sys2Proof/Decode.lean ====
section
/-! DEFINITION. What spells a command. The rows of spec/opcode_table.json give no bits, so no word of theirs spells one (log
entry 22); a byte written to COMMAND does (R162). -/

namespace Sys2Proof

/-- The command a word spells by the bits of spec/opcode_table.json: none, since no row gives bits. -/
def decodeTableWord (_nbits _w : Nat) : Option Instr := none

/-- The command a code written to COMMAND issues (R162). -/
def commandOf (code : Byte) : Instr :=
  if code = 0x00 then .nop
  else if code = 0x01 then .join
  else if code = 0x02 then .leave
  else if code = 0x03 then .restart
  else if code = 0x04 then .propose
  else if code = 0x05 then .hold
  else if code = 0x06 then .release
  else if code = 0x07 then .clear
  else if code = 0x08 then .stop
  else if code = 0x09 then .push
  else if code = 0x0A then .flush
  else if code = 0x0B then .tread
  else if code = 0x0C then .twrite
  else if code = 0x0D then .recallResult
  else .unknownCommand code

end Sys2Proof
end

