-- ==== Sys2Proof/Config.lean ====
section
/-! DEFINITION. What the reference leaves open: constants without a value. Nothing can be proved of what they give, so a
statement about the machine holds whatever they give. Each is applied to the counter `free` of State, which the step that uses
it advances. -/

namespace Sys2Proof.Config

/-- Which of two events or blocks is first, where the reference gives both orders: the Carrier Unit and the Change Unit at a mark
(R102), the Trip Unit and the Change Unit at a loss (R59) or at the mark of E (R65), an advance and its load (R110), a raised cause
and the other events of its tick (R139), a sample and a transition of the line (R1). Log entries 3, 4 and 30 to 33. -/
opaque firstOfTwo : Nat → Bool

/-- The order in which the events of one tick are taken, where several fall due together (R77: either may be taken first),
as a code that `Sys2Proof.Machine.arrange` reads. Log entry 2. -/
opaque tickOrder : Nat → Nat

/-- The detail byte of a result whose rule names the code and no detail (JOIN and CLEAR done, LEAVE, RESTART, a CLEAR ended
by a withdrawal). Log entry 5. -/
opaque unstatedDetail : Nat → Byte

/-- The level on SDO while a write shifts a bit in. Log entry 35. -/
opaque unstatedLevel : Nat → Bool

end Sys2Proof.Config
end

