-- ==== Sys2Proof/Machine/State.lean ====
section
/-! DEFINITION. The state of the G316 as plain data, block by block (00, Block overview), and the machine right after reset. -/

namespace Sys2Proof.Machine

/-! ## Station Control -/

/-- The five station states (R76). -/
inductive StationState where
  | offline | listening | joined | running | tripped
  deriving DecidableEq, Repr

/-- The phase of an acquisition (R80). -/
inductive AcqPhase where
  | seek | locking | listen
  deriving DecidableEq, Repr

/-- The acquisition record (R80). -/
structure Acquisition where
  phase : AcqPhase
  /-- Bit times since JOIN, 0 to 4L; it matters only in SEEK (R84). -/
  elapsed : Nat
  /-- Failed lock attempts, 0 to 3 (R81). -/
  failedLocks : Nat
  /-- The listening cycle, 0 to 4 (R82). -/
  listening : Nat
  /-- The taken cycle number (R82). -/
  taken : Option CycleNo
  deriving DecidableEq, Repr

/-! ## Link Engine -/

/-- The mark state NONE, DEFERRED or DRIVING (R7); `quiet` is NONE. -/
inductive MarkState where
  | quiet | deferred | driving
  deriving DecidableEq, Repr

/-- The readback result of the own window (R13). -/
inductive Readback where
  | good | failed
  deriving DecidableEq, Repr

/-- What has come of the frame of the window in progress: nothing is complete yet, a valid frame was handed over, or the rest
of the window is ignored because the frame is invalid (R14, R15). -/
inductive RxStatus where
  | waiting | handedOver | spoiled
  deriving DecidableEq, Repr

/-- The dominant run on the line (R1, R8): none; one in progress whose first bit time had timer value `start`, `length` bit
times long so far; or one that is not judged any more, because it was judged at its twelfth bit time or its beginning was not
sampled. -/
inductive LineRun where
  | between
  | counting (start length : Nat)
  | passed
  deriving DecidableEq, Repr

/-- What the receiver waits for inside a window (R3, R14): the first start bit; the data bits of a byte, least significant bit
first; its stop bit; the next start bit after `gap` recessive bit times; or nothing more. Data bits are kept as read, true for
dominant. -/
inductive RxPhase where
  | hunt
  | data (bits : List Bool)
  | stop (bits : List Bool)
  | gap (gap : Nat)
  | done
  deriving DecidableEq, Repr

/-- The bit engine of the link (R1, R3): the bit time in progress, the dominant run, the bits being sent and the byte being
received. Levels and samples are true for dominant. -/
structure BitEngine where
  /-- Ticks since the start of the bit time in progress. -/
  phase : Nat
  /-- The sample of the bit time in progress has been taken. -/
  sampled : Bool
  /-- That sample. -/
  sample : Bool
  /-- The level of LRX at the last tick. -/
  level : Bool
  /-- The sample of the last bit time that counted. -/
  previous : Bool
  run : LineRun
  /-- Dominant bit times of the own mark already driven, 0 to 12 (R7). -/
  driven : Nat
  /-- The bits of the own frame not yet sent in full; while `sending`, the first of them is on the line (R3, R12). -/
  txBits : List Bool
  sending : Bool
  rx : RxPhase
  deriving DecidableEq, Repr

/-- The state of the Link Engine (R5 to R19). -/
structure Link where
  /-- The cycle timer t, in bit times (R5, R6). -/
  timer : Nat
  /-- The cycle number (R17). -/
  cycle : CycleNo
  mark : MarkState
  /-- The transmit buffer: the bytes of the own frame, from the start to the end of the own window (R12). -/
  txBuffer : List Byte
  /-- The receive buffer: the bytes assembled in the window in progress (R14). -/
  rxBuffer : List Byte
  rx : RxStatus
  /-- The readback result of the last own window (R13). -/
  readback : Readback
  /-- A difference or a receive error has been met in the own window in progress (R13). -/
  readbackBad : Bool
  /-- Consecutive own-window failures, 0 to M (R13). -/
  failures : Nat
  /-- Consecutive short intervals, 0 to 3 (R11). -/
  shorts : Nat
  /-- The cycle-number tally (R18). -/
  tally : List CycleNo
  /-- The discord flag (R18). -/
  discord : Bool
  bits : BitEngine
  deriving DecidableEq, Repr

/-! ## Window frames -/

/-- The station state a frame advertises (R20). -/
inductive AdvState where
  | joined | running | tripped
  deriving DecidableEq, Repr

/-- A verdict on a change: ACCEPT or a refusal reason (R25). -/
inductive Verdict where
  | accept | late | profile | held | basis | member
  deriving DecidableEq, Repr

/-- The proposal part of a frame (R20). -/
structure Proposal where
  sequence : SequenceNo
  newProfile : ProfileNo
  newSet : StationSet
  electorate : StationSet
  effective : CycleNo
  deriving DecidableEq, Repr

/-- The vote part of a frame (R20). -/
structure Vote where
  proposer : StationNo
  sequence : SequenceNo
  verdict : Verdict
  deriving DecidableEq, Repr

/-- The optional part of a frame (R20). -/
inductive FramePart where
  | base
  | proposal (p : Proposal)
  | vote (v : Vote)
  deriving DecidableEq, Repr

/-- A window frame, by its named fields (R20, R22). -/
structure Frame where
  sender : StationNo
  state : AdvState
  linkCode : Byte
  cycle : CycleNo
  group : BitVec 2
  profile : ProfileNo
  tripClass : BitVec 3
  set : StationSet
  part : FramePart
  deriving DecidableEq, Repr

/-! ## Roster -/

/-- The presence of a peer (R32). -/
inductive Presence where
  | unseen | present | absent
  deriving DecidableEq, Repr

/-- A roster entry (R32). -/
structure RosterEntry where
  presence : Presence
  /-- The advertised state; none while UNSEEN. -/
  state : Option AdvState
  group : BitVec 2
  profile : ProfileNo
  set : StationSet
  tripClass : BitVec 3
  lastHeard : CycleNo
  misses : Nat
  deriving DecidableEq, Repr

/-- The Roster (R32): an entry for every station number (those of the own number and of numbers at or above S are never
written, and read UNSEEN), the lost set and the mismatch flag. -/
structure Roster where
  entries : Vector RosterEntry 16
  lost : StationSet
  mismatch : Bool
  deriving DecidableEq, Repr

/-! ## Change Unit -/

/-- The slot states NONE, PENDING, OPEN and AGREED (R46); `vacant` is NONE. -/
inductive SlotState where
  | vacant | pending | opened | agreed
  deriving DecidableEq, Repr

/-- The change slot (R46). -/
structure Slot where
  state : SlotState
  /-- Origin REMOTE; clear for LOCAL. -/
  remote : Bool
  automatic : Bool
  proposer : StationNo
  /-- The sequence of the identity; none while unassigned. -/
  sequence : Option SequenceNo
  newSet : StationSet
  newProfile : ProfileNo
  baseSet : StationSet
  baseProfile : ProfileNo
  electorate : StationSet
  effective : CycleNo
  accepts : StationSet
  verdict : Option Verdict
  firstSeen : CycleNo
  deriving DecidableEq, Repr

/-- The Change Unit (R46, R47). -/
structure ChangeUnit where
  slot : Slot
  /-- The running-set view (R47). -/
  view : StationSet
  /-- The live profile (R47). -/
  profile : ProfileNo
  /-- The proposal sequence counter (R24). -/
  sequence : SequenceNo
  /-- The refresh collection: set and profile of each RUNNING own-group frame of the cycle (R29). -/
  collection : List (StationSet × ProfileNo)
  /-- The view-discord flag (R72). -/
  viewDiscord : Bool
  /-- The hold flag (R73). -/
  hold : Bool
  deriving DecidableEq, Repr

/-! ## Carrier Unit, Gate Stage, Setpoint Unit -/

/-- The carrier shape (R95). -/
inductive Shape where
  | triangle | saw
  deriving DecidableEq, Repr

/-- The load-point setting (R104). -/
inductive LoadSetting where
  | valley | peak | both
  deriving DecidableEq, Repr

/-- The Carrier Unit (R93). The half period H is `period / 2`. -/
structure Carrier where
  running : Bool
  period : Nat
  shape : Option Shape
  loadSetting : Option LoadSetting
  offset : Nat
  position : Nat
  setThisTick : Bool
  /-- Advances still to be made over positions that a backward correction runs again (R100). -/
  rerun : Nat
  deriving DecidableEq, Repr

/-- A leg mode (R107). -/
inductive LegMode where
  | off | switch | upperOn | lowerOn
  deriving DecidableEq, Repr

/-- One value for each of the legs A, B and C. -/
structure PerLeg (α : Type) where
  a : α
  b : α
  c : α
  deriving DecidableEq, Repr

/-- A mode and a compare value for one leg (R119). -/
structure LegSetting where
  mode : LegMode
  compare : Word16
  deriving DecidableEq, Repr

/-- The Gate Stage's state for one leg (R107). -/
structure LegState where
  mode : LegMode
  compare : Word16
  upper : Bool
  lower : Bool
  pending : Option Side
  count : Nat
  deriving DecidableEq, Repr

/-- The Gate Stage (R107). The output polarity in force is the LINK table's field, which the freeze keeps (R117). -/
structure Gate where
  legs : PerLeg LegState
  deadTime : Nat
  deriving DecidableEq, Repr

/-- A setpoint record: a profile tag and a setting for each leg (R119). -/
structure Setpoint where
  tag : ProfileNo
  legs : PerLeg LegSetting
  deriving DecidableEq, Repr

/-- The Setpoint Unit (R118). -/
structure SetpointUnit where
  /-- Oldest record first. -/
  queue : List Setpoint
  live : PerLeg LegSetting
  position : Nat
  ended : Bool
  starve : Nat
  starveRun : Bool
  deriving DecidableEq, Repr

/-! ## Trip Unit -/

/-- The nine trip causes (R133). -/
inductive Cause where
  | fault (input : Fin 4)
  | tripLine | peerLoss | mismatch | starved | host
  deriving DecidableEq, Repr

/-- The kind of a mismatch (R41). -/
inductive MismatchKind where
  | outsider | pair
  deriving DecidableEq, Repr

/-- One filtered input (R132): its filtered level, true for asserted, and the number of consecutive ticks it has been sampled
at the opposite level. -/
structure Filter where
  asserted : Bool
  run : Nat
  deriving DecidableEq, Repr

/-- The Trip Unit (R131). -/
structure TripUnit where
  /-- The first cause; none while not TRIPPED. -/
  first : Option Cause
  /-- The cause set, bit i for the cause with index i of the CAUSE table (R156). -/
  causes : BitVec 9
  entry : CycleNo
  /-- The drive flag: the station pulls TRPn low. -/
  drive : Bool
  faults : Vector Filter 4
  tripLine : Filter
  /-- The clear progress: SETTLING (R144). -/
  settling : Bool
  /-- Ticks of the settle that have passed. -/
  settled : Nat
  deriving DecidableEq, Repr

/-! ## Configuration tables -/

/-- The link divisor D (R151). -/
inductive Divisor where
  | d4 | d8 | d16
  deriving DecidableEq, Repr

/-- The station count S (R151). -/
inductive StationCount where
  | s8 | s16
  deriving DecidableEq, Repr

/-- The output polarity (R117). -/
inductive Polarity where
  | activeHigh | activeLow
  deriving DecidableEq, Repr

/-- The LINK entry (R151). The station number it shows is the station's own (R153). -/
structure LinkTable where
  divisor : Divisor
  count : StationCount
  cycleLength : Nat
  lead : Nat
  missLimit : Nat
  linkCode : Byte
  group : BitVec 2
  starveLimit : Nat
  faultFilter : Nat
  polarity : Polarity
  valid : Bool
  deriving DecidableEq, Repr

/-- The carrier ratio N (R155). -/
inductive Ratio where
  | n1 | n2 | n4
  deriving DecidableEq, Repr

/-- The source of a profile's setpoints (R155). -/
inductive Source where
  | queue | pattern
  deriving DecidableEq, Repr

/-- A PROFILE entry (R155). -/
structure Profile where
  configured : Bool
  ratio : Ratio
  shape : Shape
  deadTime : Nat
  interleave : Bool
  loadSetting : LoadSetting
  enables : PerLeg Bool
  source : Source
  patternStart : Nat
  patternLength : Nat
  patternRepeat : Bool
  deriving DecidableEq, Repr

/-- The action of a cause row (R134). -/
inductive Action where
  | ignore | report | respace | trip
  deriving DecidableEq, Repr

/-- A row of the CAUSE table (R134, R156). -/
structure CauseRow where
  action : Action
  drive : Bool
  deriving DecidableEq, Repr

/-- The configuration tables and the freeze flag (R149, R150). Profile 0 is the parked profile and is never written (R154). -/
structure Tables where
  link : LinkTable
  profiles : Vector Profile 8
  causes : Vector CauseRow 9
  pattern : Vector (PerLeg LegSetting) 64
  frozen : Bool
  deriving DecidableEq, Repr

/-! ## Reports and Host Port -/

/-- The cause a withdrawal carries (R88). -/
inductive WithdrawalCause where
  | leave | restart | linkMismatch | windowConflict | numberTaken | joinAborted
  deriving DecidableEq, Repr

/-- The reason of a LINK_MISMATCH report (R172). -/
inductive LinkMismatchReason where
  | lockFailed | noNumber | foreignCode | markTimeout | shortInterval
  deriving DecidableEq, Repr

/-- The outcome of a change that closes (R66). -/
inductive ChangeOutcome where
  | applied | lapsed | refused | memberLost | proposerLost | conflict | withdrawn | abandoned | slipped
  deriving DecidableEq, Repr

/-- The cause a departure or loss notice names (R59). -/
inductive NoticeCause where
  | absence | trip | regroup | joined
  deriving DecidableEq, Repr

/-- The reason a CHANGE_CLOSED carries (R66, R172). -/
inductive CloseReason where
  | noReason
  | refusal (verdict : Verdict)
  | notice (cause : NoticeCause)
  | contended
  | trip
  | withdrawal
  deriving DecidableEq, Repr

/-- The kind of a report with what it carries (R172). -/
inductive ReportBody where
  | joinedLink (present : Nat)
  | linkAlone
  | leftLink (cause : WithdrawalCause) (left : StationState)
  | joinAborted (input : Fin 4)
  | numberTaken
  | linkMismatch (reason : LinkMismatchReason) (foreign : Byte) (state : StationState)
  | windowConflict (failures : Nat) (state : StationState)
  | peerPresent (state : AdvState) (group : BitVec 2) (wasAbsent : Bool)
  | peerAbsent (lastHeard : CycleNo) (member : Bool)
  | cycleSlip (held : CycleNo) (closed : Bool)
  | cycleDiscord (frames distinct : Nat)
  | viewDiscord (frames : Nat) (containsSelf : Bool)
  | changeOpened (toEffective : Nat) (sequence : SequenceNo) (remote automatic : Bool) (verdict : Option Verdict)
  | changeClosed (outcome : ChangeOutcome) (sequence : Option SequenceNo) (remote automatic : Bool) (reason : CloseReason)
  | tripped (cause : Cause) (drive : Bool) (left : StationState) (kind : Option MismatchKind)
  | tripAdded (cause : Cause) (drive : Bool) (kind : Option MismatchKind)
  | tripCleared (first : Option Cause) (causes : BitVec 9) (cycles : Nat)
  | causeSeen (cause : Cause) (state : StationState) (kind : Option MismatchKind)
  | staleSetpoint (discarded : Nat) (tag live : ProfileNo)
  | starveBegin (live : ProfileNo) (limit : Nat)
  | patternEnd (live : ProfileNo) (start length : Nat)
  deriving DecidableEq, Repr

/-- An entry of the report queue (R172). -/
structure Report where
  body : ReportBody
  gap : Bool
  cycle : CycleNo
  subject : StationNo
  deriving DecidableEq, Repr

/-- A result code (R163). -/
inductive ResultCode where
  | done | busy | refusedState | refusedRange | refusedFrozen | refusedFull | refusedMember | refusedProfile
  | refusedNoChange | refusedActive | refusedFaultActive | refusedInvalid | refusedUnknown
  deriving DecidableEq, Repr

/-- What the bits of the SPI port belong to (R160): the command byte, or a data byte of a write or of a read, with the register
address and the byte offset in that register. -/
inductive Transfer where
  | command
  | write (address : BitVec 7) (offset : Nat)
  | read (address : BitVec 7) (offset : Nat)
  deriving DecidableEq, Repr

/-- The SPI port (R160): the levels of CSn and SCK at the last tick, the byte in progress, and what a read has latched. -/
structure SpiPort where
  /-- CSn was low at the last tick: a transfer is in progress. -/
  selected : Bool
  /-- The level of SCK at the last tick. -/
  clock : Bool
  transfer : Transfer
  /-- Bits of the byte in progress whose rising edge has passed, 0 to 7. -/
  count : Nat
  /-- The bits sampled on SDI, the newest one least significant. -/
  shift : Byte
  /-- The level on SDO. -/
  out : Bool
  /-- The bytes of the register being read, as they were when its first byte began to shift out. -/
  latched : List Byte
  /-- The REPORT entry being read, and whether the queue held one when its byte 0 began to shift out (R170). -/
  entry : Option (Vector Byte 8 × Bool)
  deriving DecidableEq, Repr

/-- The Host Port's registers and report queue (R161, R163, R169). -/
structure HostPort where
  result : ResultCode
  detail : Byte
  lastCommand : Byte
  args : Vector Byte 8
  tsel : Byte
  tidx : Byte
  tdata : Vector Byte 8
  /-- The report queue, oldest entry first. -/
  reports : List Report
  /-- The bytes the last complete read of REPORT returned (R170). -/
  latch : Vector Byte 8
  port : SpiPort
  deriving DecidableEq, Repr

/-- The levels the outside puts on the pins (00, Pins): RSTn, true for high; ID0 to ID3; FLT0 to FLT3, true for asserted (low);
whether another station pulls TRPn low; whether another station drives the link dominant; CSn, SCK and SDI of the host port, true
for high. -/
structure Pins where
  rstn : Bool
  ids : IdPins
  faults : Vector Bool 4
  tripOthers : Bool
  lineOthers : Bool
  csn : Bool
  sck : Bool
  sdi : Bool
  deriving DecidableEq, Repr

/-! ## The tick in progress -/

/-- The levels of the two gate pins of a leg, true for high (R117). -/
structure PinPair where
  upper : Bool
  lower : Bool
  deriving DecidableEq, Repr

/-- A cause that has been raised and is not yet taken, with its subject and mismatch kind (R139). -/
structure Raised where
  cause : Cause
  subject : StationNo
  kind : Option MismatchKind
  deriving DecidableEq, Repr

/-- What is taken only after the other events of its tick: a raised cause, or the content of the frame that has raised one, which
stage 3 of its hand-over takes after the cause (R28, R139). -/
inductive Postponed where
  | cause (raised : Raised)
  | content (frame : Frame)
  deriving DecidableEq, Repr

/-- What a withdrawal has left behind in its tick: the state a second claim of that tick was raised in (R77, R90), with the tables
that were frozen then (R79). -/
structure Leaving where
  station : StationState
  acq : Acquisition
  link : Link
  tables : Tables
  deriving DecidableEq, Repr

/-- What the model keeps of the tick in progress, so that events of one tick meet as the rules lay down (log entry 29). -/
structure Moment where
  /-- The levels of the gate pins after the last tick, which they show until every event of this one is taken (R110). -/
  shown : PerLeg PinPair
  /-- A trip entry has been made in this tick (R139). -/
  entered : Bool
  /-- The station has entered JOINED from LISTENING in this tick (R90). -/
  arrived : Bool
  /-- What is taken after the other events of this tick, in this order (R28, R139). -/
  waiting : List Postponed
  /-- The withdrawal made in this tick, if any (R90). -/
  left : Option Leaving
  deriving DecidableEq, Repr

/-- The whole station. -/
structure State where
  station : StationState
  /-- The station number sampled from ID0-ID3 (R153). -/
  number : StationNo
  acq : Acquisition
  link : Link
  roster : Roster
  change : ChangeUnit
  carrier : Carrier
  gate : Gate
  setpoint : SetpointUnit
  trip : TripUnit
  tables : Tables
  host : HostPort
  pins : Pins
  now : Moment
  /-- The model's own counter: the free values of Config are applied to it, and a step that uses one advances it. -/
  free : Nat
  /-- The commands that wait, the next one first. -/
  pending : List Instr
  deriving DecidableEq, Repr

/-- Why the machine stops with a fault. -/
inductive Fault where
  /-- Raised by a term that is no command of the block: UNKNOWN_COMMAND with a code below 0x0E, which R162 gives to another
  command. Safe: no write of COMMAND is such a term. -/
  | notACommand (code : Byte)
  deriving DecidableEq, Repr

/-- Why a command is refused for want of a meaning. -/
inductive Refusal where
  /-- Raised by the dispatch for a command without a meaning. Safe: the model stops. No command is refused so. -/
  | notModelled (mnemonic : String)
  deriving DecidableEq, Repr

/-! ## Reset values -/

/-- The start values of the acquisition record (R80). -/
def Acquisition.start : Acquisition :=
  { phase := .seek, elapsed := 0, failedLocks := 0, listening := 0, taken := none }

/-- The bit engine at rest: no bit time begun, a run in progress not counted. -/
def BitEngine.rest : BitEngine :=
  { phase := 0, sampled := false, sample := false, level := false, previous := false, run := .between, driven := 0,
    txBits := [], sending := false, rx := .hunt }

/-- The Link Engine's values at power-on and at withdrawal, with the cycle number given (R19). -/
def Link.rest (cycle : CycleNo) : Link :=
  { timer := 0, cycle := cycle, mark := .quiet, txBuffer := [], rxBuffer := [], rx := .waiting, readback := .good,
    readbackBad := false, failures := 0, shorts := 0, tally := [], discord := false, bits := BitEngine.rest }

/-- An UNSEEN entry with its defaults (R32). -/
def RosterEntry.unseen : RosterEntry :=
  { presence := .unseen, state := none, group := 0, profile := 0, set := 0, tripClass := 0, lastHeard := 0, misses := 0 }

/-- The Roster at power-on and at withdrawal (R45). -/
def Roster.empty : Roster :=
  { entries := Vector.replicate 16 RosterEntry.unseen, lost := 0, mismatch := false }

/-- The slot NONE with its defaults (R46). -/
def Slot.vacant : Slot :=
  { state := .vacant, remote := false, automatic := false, proposer := 0, sequence := none, newSet := 0, newProfile := 0,
    baseSet := 0, baseProfile := 0, electorate := 0, effective := 0, accepts := 0, verdict := none, firstSeen := 0 }

/-- The Change Unit with nothing in it and the sequence counter given (R67, R91). -/
def ChangeUnit.empty (sequence : SequenceNo) : ChangeUnit :=
  { slot := Slot.vacant, view := 0, profile := 0, sequence := sequence, collection := [], viewDiscord := false, hold := false }

/-- The stopped carrier (R93). -/
def Carrier.stopped : Carrier :=
  { running := false, period := 0, shape := none, loadSetting := none, offset := 0, position := 0, setThisTick := false,
    rerun := 0 }

/-- A leg forced off (R107, R116). -/
def LegState.off : LegState :=
  { mode := .off, compare := 0, upper := false, lower := false, pending := none, count := 0 }

/-- The Gate Stage forced off (R107, R116). -/
def Gate.off : Gate :=
  { legs := { a := LegState.off, b := LegState.off, c := LegState.off }, deadTime := 0 }

/-- A leg setting with mode OFF and compare value 0. -/
def LegSetting.off : LegSetting := { mode := .off, compare := 0 }

/-- All legs OFF (R118). -/
def allOff : PerLeg LegSetting := { a := LegSetting.off, b := LegSetting.off, c := LegSetting.off }

/-- The Setpoint Unit's values at power-on, withdrawal and trip entry (R118). -/
def SetpointUnit.empty : SetpointUnit :=
  { queue := [], live := allOff, position := 0, ended := false, starve := 0, starveRun := false }

/-- A filtered input deasserted, with no run (R91, R132). -/
def Filter.quiet : Filter := { asserted := false, run := 0 }

/-- The Trip Unit at power-on (R91, R131). -/
def TripUnit.empty : TripUnit :=
  { first := none, causes := 0, entry := 0, drive := false, faults := Vector.replicate 4 Filter.quiet,
    tripLine := Filter.quiet, settling := false, settled := 0 }

/-- The LINK entry's defaults (R151). -/
def LinkTable.default : LinkTable :=
  { divisor := .d4, count := .s8, cycleLength := 1440, lead := 4, missLimit := 2, linkCode := 0, group := 0,
    starveLimit := 0, faultFilter := 0, polarity := .activeHigh, valid := false }

/-- The parked profile (R154). -/
def Profile.parked : Profile :=
  { configured := false, ratio := .n1, shape := .triangle, deadTime := 1, interleave := false, loadSetting := .valley,
    enables := { a := false, b := false, c := false }, source := .queue, patternStart := 0, patternLength := 1,
    patternRepeat := false }

/-- The defaults of PROFILE entries 1 to 7 (R155). -/
def Profile.default : Profile := { Profile.parked with deadTime := 32, interleave := true }

/-- The CAUSE table's defaults, in index order (R134, R156). -/
def defaultCauses : Vector CauseRow 9 :=
  #v[⟨.trip, true⟩, ⟨.trip, true⟩, ⟨.trip, true⟩, ⟨.trip, true⟩, ⟨.trip, false⟩, ⟨.trip, false⟩, ⟨.trip, true⟩,
    ⟨.trip, false⟩, ⟨.trip, false⟩]

/-- The tables at power-on (R91). -/
def Tables.default : Tables :=
  { link := LinkTable.default
    profiles := #v[Profile.parked, Profile.default, Profile.default, Profile.default, Profile.default, Profile.default,
      Profile.default, Profile.default]
    causes := defaultCauses
    pattern := Vector.replicate 64 allOff
    frozen := false }

/-- The SPI port with no transfer in progress (R160). -/
def SpiPort.rest : SpiPort :=
  { selected := false, clock := false, transfer := .command, count := 0, shift := 0, out := false, latched := [],
    entry := none }

/-- The Host Port at power-on (R91, R173). -/
def HostPort.default : HostPort :=
  { result := .done, detail := 0, lastCommand := 0, args := Vector.replicate 8 0, tsel := 0, tidx := 0,
    tdata := Vector.replicate 8 0, reports := [], latch := Vector.replicate 8 0, port := SpiPort.rest }

/-- The pins with RSTn high and nothing asserted from outside (log entry 6: DESIGN CHOICE, unsafe). -/
def Pins.idle : Pins :=
  { rstn := true, ids := ⟨false, false, false, false⟩, faults := Vector.replicate 4 false, tripOthers := false,
    lineOthers := false, csn := true, sck := false, sdi := false }

/-- A tick in which nothing has happened, after one with all gate pins low (R91). -/
def Moment.rest : Moment :=
  { shown := { a := ⟨false, false⟩, b := ⟨false, false⟩, c := ⟨false, false⟩ }, entered := false, arrived := false,
    waiting := [], left := none }

/-- Every block at its power-on state, with the station number sampled, the levels outside and the model's own fields given
(R91, R173). -/
def State.powerOn (number : StationNo) (pins : Pins) (free : Nat) (pending : List Instr) : State :=
  { station := .offline, number := number, acq := Acquisition.start, link := Link.rest 0, roster := Roster.empty,
    change := ChangeUnit.empty 0, carrier := Carrier.stopped, gate := Gate.off, setpoint := SetpointUnit.empty,
    trip := TripUnit.empty, tables := Tables.default, host := HostPort.default, pins := pins,
    now := Moment.rest, free := free, pending := pending }

/-- The machine right after reset: the power-on state (R91) of a station whose ID pins read 0, with idle pins and no command
waiting (log entries 6, 20, 21: DESIGN CHOICE, unsafe). -/
def State.reset : State := State.powerOn 0 Pins.idle 0 []

end Sys2Proof.Machine
end

