-- ==== Sys2Proof/Machine/Ops.lean ====
section
/-! DEFINITION. The operations every block uses: bytes, sets of stations, codes, table values, the free values, the result
register and the report queue. -/

namespace Sys2Proof.Machine

/-! ## Bytes and bits -/

/-- One flag as a one-bit field. -/
def flag (b : Bool) : BitVec 1 := BitVec.ofBool b

/-- The low byte of a two-byte value, sent first (00, Quantities). -/
def lowByte (w : Word16) : Byte := w.extractLsb' 0 8

/-- The high byte of a two-byte value. -/
def highByte (w : Word16) : Byte := w.extractLsb' 8 8

/-- A two-byte value from its bytes, low byte first. -/
def wordOf (low high : Byte) : Word16 := high ++ low

/-! ## Sets of stations (00, Station numbers, sets and ranks) -/

/-- The station numbers in increasing order. -/
def stations : List StationNo := [0, 1, 2, 3, 4, 5, 6, 7, 8, 9, 10, 11, 12, 13, 14, 15]

/-- Station `k` is a member of the set. -/
def member (k : StationNo) (set : StationSet) : Bool := set.getLsbD k.val

/-- The set with `k` as its only member. -/
def single (k : StationNo) : StationSet := BitVec.twoPow 16 k.val

/-- The set with `k` added. -/
def adjoin (k : StationNo) (set : StationSet) : StationSet := set ||| single k

/-- The set without `k`. -/
def remove (k : StationNo) (set : StationSet) : StationSet := set &&& ~~~ single k

/-- The members of `set` that are not members of `other`. -/
def without (set other : StationSet) : StationSet := set &&& ~~~ other

/-- Every member of `set` is a member of `other`. -/
def subset (set other : StationSet) : Bool := without set other == 0

/-- The set of the stations that meet a test. -/
def setOf (test : StationNo → Bool) : StationSet :=
  stations.foldl (fun set k => if test k then adjoin k set else set) 0

/-- The members of a set, in increasing order. -/
def members (set : StationSet) : List StationNo := stations.filter (fun k => member k set)

/-- The size of a set. -/
def size (set : StationSet) : Nat := (members set).length

/-- The rank of `k` in a set: the number of members with a lower number (00). -/
def rank (k : StationNo) (set : StationSet) : Nat := ((members set).filter (fun j => j < k)).length

/-- The station number that the pins ID0 to ID3 spell, ID0 the least significant digit (R153). -/
def idNumber (ids : IdPins) : StationNo := (flag ids.id3 ++ flag ids.id2 ++ flag ids.id1 ++ flag ids.id0 : BitVec 4).toFin

/-! ## Legs -/

/-- The value of one leg. -/
def PerLeg.get {α : Type} (v : PerLeg α) : Leg → α
  | .a => v.a
  | .b => v.b
  | .c => v.c

/-- The value of one leg replaced by what `f` makes of it. -/
def PerLeg.modify {α : Type} (v : PerLeg α) (leg : Leg) (f : α → α) : PerLeg α :=
  match leg with
  | .a => { v with a := f v.a }
  | .b => { v with b := f v.b }
  | .c => { v with c := f v.c }

/-- Every leg's value replaced by what `f` makes of it. -/
def PerLeg.map {α β : Type} (f : α → β) (v : PerLeg α) : PerLeg β := { a := f v.a, b := f v.b, c := f v.c }

/-! ## Codes -/

/-- The station state's code in STATUS, in details and in reports (R161, R163, R172). -/
def stateCode : StationState → BitVec 3
  | .offline => 0
  | .listening => 1
  | .joined => 2
  | .running => 3
  | .tripped => 4

/-- The station state's code as a result detail (R163). -/
def stateDetail (st : StationState) : Byte := (stateCode st).setWidth 8

/-- The slot state's code in STATUS and as a detail (R161, R163). -/
def slotCode : SlotState → BitVec 2
  | .vacant => 0
  | .pending => 1
  | .opened => 2
  | .agreed => 3

/-- The index of a cause in the CAUSE table (R156). -/
def causeIndex : Cause → Fin 9
  | .fault i => ⟨i.val, by omega⟩
  | .tripLine => 4
  | .peerLoss => 5
  | .mismatch => 6
  | .starved => 7
  | .host => 8

/-- The set with one cause as its only member. -/
def causeBit (c : Cause) : BitVec 9 := BitVec.twoPow 9 (causeIndex c).val

/-- The cause is in the set. -/
def hasCause (c : Cause) (set : BitVec 9) : Bool := set.getLsbD (causeIndex c).val

/-- The trip class of a first cause, 0 with none (R26). -/
def tripClassOf : Option Cause → BitVec 3
  | none => 0
  | some (.fault _) => 1
  | some .tripLine => 2
  | some .peerLoss => 3
  | some .mismatch => 4
  | some .starved => 5
  | some .host => 6

/-! ## Table values -/

/-- Ticks of a bit time (R2). -/
def ticksOf : Divisor → Nat
  | .d4 => 4
  | .d8 => 8
  | .d16 => 16

/-- The station count as a number (R151). -/
def countOf : StationCount → Nat
  | .s8 => 8
  | .s16 => 16

/-- The carrier ratio as a number (R155). -/
def ratioOf : Ratio → Nat
  | .n1 => 1
  | .n2 => 2
  | .n4 => 4

/-- The station count S of the LINK table. -/
def stationCount (s : State) : Nat := countOf s.tables.link.count

/-- The cycle length L of the LINK table. -/
def cycleLength (s : State) : Nat := s.tables.link.cycleLength

/-- The timer value at which the tail begins, 16 + 176 S (R5). -/
def tailStart (s : State) : Nat := 16 + 176 * stationCount s

/-- The timer value at which window `k` begins, 16 + 176 k (R5). -/
def windowStart (k : StationNo) : Nat := 16 + 176 * k.val

/-- Mark intervals below this are short, and it is the lower end of the lock range: L - floor(L/64) (R11, R81). -/
def shortLimit (s : State) : Nat := cycleLength s - cycleLength s / 64

/-- A PROFILE entry (R154, R155). -/
def profileAt (t : Tables) (p : ProfileNo) : Profile := t.profiles[p.toFin]

/-- The live profile's entry. -/
def liveProfile (s : State) : Profile := profileAt s.tables s.change.profile

/-- The carrier period of a profile under a LINK table, P = L D / N ticks (R94). -/
def periodOf (l : LinkTable) (p : Profile) : Nat := l.cycleLength * ticksOf l.divisor / ratioOf p.ratio

/-- The top of a profile's compare range: H for a TRIANGLE, P for a SAW (R109, R119). -/
def compareTop (l : LinkTable) (p : Profile) : Nat :=
  match p.shape with
  | .triangle => periodOf l p / 2
  | .saw => periodOf l p

/-- The row of a cause (R134). -/
def rowOf (t : Tables) (c : Cause) : CauseRow := t.causes[causeIndex c]

/-! ## Station states -/

/-- The station is JOINED, RUNNING or TRIPPED. -/
def onLink (s : State) : Bool :=
  match s.station with
  | .joined | .running | .tripped => true
  | .offline | .listening => false

/-- The station is JOINED or RUNNING. -/
def inGroup (s : State) : Bool :=
  match s.station with
  | .joined | .running => true
  | .offline | .listening | .tripped => false

/-- The windows are timed and received: on the link, and in LISTENING once it has lock (R14, R16). -/
def receiving (s : State) : Bool := onLink s || (s.station == .listening && s.acq.phase == .listen)

/-! ## Outcomes -/

/-- The outcome of a command. -/
abbrev Out := Host.Outcome State Fault Refusal

/-- A command that is without effect while RSTn is low (R91, R160; log entry 9). -/
def whilePowered (s : State) (f : State → State) : Out := .next (if s.pins.rstn then f s else s)

/-! ## Free values -/

/-- Whether the first of two blocks goes first, where the order is open; the counter is advanced (log entries 3 and 4). -/
def chooseFirst (s : State) : Bool × State := (Config.firstOfTwo s.free, { s with free := s.free + 1 })

/-- A list with `x` put in at place `n`, or at its end. -/
def insertAt {α : Type} (x : α) : List α → Nat → List α
  | [], _ => [x]
  | y :: ys, 0 => x :: y :: ys
  | y :: ys, n + 1 => y :: insertAt x ys n

/-- A list put into the order a code gives: every order is the order of some code (log entry 2). -/
def arrange {α : Type} : List α → Nat → List α
  | [], _ => []
  | x :: xs, code => insertAt x (arrange xs (code / (xs.length + 1))) (code % (xs.length + 1))

/-! ## The result register (R163) -/

/-- RESULT takes a code and a detail. -/
def setResult (code : ResultCode) (detail : Byte) (s : State) : State :=
  { s with host := { s.host with result := code, detail := detail } }

/-- RESULT takes a code whose detail no rule names: the detail is a free value (log entry 5). -/
def setResultOpen (code : ResultCode) (s : State) : State :=
  setResult code (Config.unstatedDetail s.free) { s with free := s.free + 1 }

/-! ## The report queue (R169) -/

/-- The queue with the gap flag of its newest entry set (R169). -/
def markGap : List Report → List Report
  | [] => []
  | [r] => [{ r with gap := true }]
  | r :: r' :: rest => r :: markGap (r' :: rest)

/-- A report arrives at the queue: it is appended with its gap flag clear, or, with 16 entries stored, it is lost and the
gap flag of the newest entry is set (R169). -/
def arrive (queue : List Report) (r : Report) : List Report :=
  if queue.length < 16 then queue ++ [r] else markGap queue

/-- A report is posted with a subject; it carries the station's cycle number (R172). -/
def post (body : ReportBody) (subject : StationNo) (s : State) : State :=
  { s with host := { s.host with
      reports := arrive s.host.reports { body := body, gap := false, cycle := s.link.cycle, subject := subject } } }

/-- A report is posted with the station itself as subject. -/
def postSelf (body : ReportBody) (s : State) : State := post body s.number s

end Sys2Proof.Machine
end

