-- ==== Sys2Proof/Machine/Operands.lean ====
section
/-! DEFINITION. The layouts of the reference: the window frame and its check (R20, R21, R27), the arguments of PROPOSE and PUSH
(R164), the staging of every table (R166), and the report entry (R172). -/

namespace Sys2Proof.Machine

/-! ## Codes of the layouts -/

/-- The station state code of a frame (R20, R22). -/
def advCode : AdvState → BitVec 2
  | .joined => 1
  | .running => 2
  | .tripped => 3

/-- The advertised state a code names; code 0 names none (R27). -/
def advOf (code : BitVec 2) : Option AdvState :=
  if code = 1 then some .joined else if code = 2 then some .running else if code = 3 then some .tripped else none

/-- The code of a verdict (R25). -/
def verdictCode : Verdict → BitVec 3
  | .accept => 0
  | .late => 1
  | .profile => 2
  | .held => 3
  | .basis => 4
  | .member => 5

/-- The verdict a code names; codes above 5 name none (R20, R27). -/
def verdictOf (code : Byte) : Option Verdict :=
  if code = 0 then some .accept else if code = 1 then some .late else if code = 2 then some .profile
  else if code = 3 then some .held else if code = 4 then some .basis else if code = 5 then some .member else none

/-- The code of an own verdict, 7 for none (R166, R172). -/
def ownVerdictCode : Option Verdict → BitVec 3
  | none => 7
  | some v => verdictCode v

/-- The mode a code names (R164); codes 4 to 15 name none. -/
def modeOf (code : BitVec 4) : Option LegMode :=
  if code = 0 then some .off else if code = 1 then some .switch else if code = 2 then some .upperOn
  else if code = 3 then some .lowerOn else none

/-- The code of a mode (R164). -/
def modeCode : LegMode → BitVec 4
  | .off => 0
  | .switch => 1
  | .upperOn => 2
  | .lowerOn => 3

/-- The station number a four-bit field names. -/
def stationOf (field : BitVec 4) : StationNo := field.toFin

/-- A station number as a four-bit field. -/
def stationField (k : StationNo) : BitVec 4 := BitVec.ofFin k

/-! ## The frame check (R21) -/

/-- One step of the check register. -/
def crcStep (r : Word16) : Word16 := if r.msb then (r <<< 1) ^^^ 0x1021#16 else r <<< 1

/-- One byte added to the check register: into its upper eight bits, then eight steps. -/
def crcByte (r : Word16) (b : Byte) : Word16 := crcStep^[8] (r ^^^ ((0#8 ++ b) <<< 8))

/-- The check of a list of bytes, from an initial value of all ones (R21). -/
def crc (bytes : List Byte) : Word16 := bytes.foldl crcByte 0xFFFF#16

/-! ## The window frame (R20) -/

/-- The frame carries a proposal part. -/
def isProposal : FramePart → Bool
  | .proposal _ => true
  | .base | .vote _ => false

/-- The frame carries a vote part. -/
def isVote : FramePart → Bool
  | .vote _ => true
  | .base | .proposal _ => false

/-- Byte 0 of a frame: sender, state code and the two flags. -/
def frameByte0 (f : Frame) : Byte :=
  flag (isVote f.part) ++ flag (isProposal f.part) ++ advCode f.state ++ stationField f.sender

/-- The seven bytes of the base part. -/
def basePart (f : Frame) : List Byte :=
  [frameByte0 f, f.linkCode, lowByte f.cycle, highByte f.cycle, f.tripClass ++ f.profile ++ f.group,
    lowByte f.set, highByte f.set]

/-- The bytes of the optional part. -/
def optionalPart : FramePart → List Byte
  | .base => []
  | .proposal p =>
    [0#1 ++ p.newProfile ++ p.sequence, lowByte p.newSet, highByte p.newSet, lowByte p.electorate, highByte p.electorate,
      lowByte p.effective, highByte p.effective]
  | .vote v => [v.sequence ++ stationField v.proposer, 0#5 ++ verdictCode v.verdict]

/-- The bytes of a frame with its check, low byte first (R20, R21). -/
def encodeFrame (f : Frame) : List Byte :=
  let body := basePart f ++ optionalPart f.part
  body ++ [lowByte (crc body), highByte (crc body)]

/-- The length in bytes that byte 0 gives a frame; both flags set give none (R3, R20). -/
def frameLength (byte0 : Byte) : Option Nat :=
  match byte0.getLsbD 6, byte0.getLsbD 7 with
  | false, false => some 9
  | true, false => some 16
  | false, true => some 11
  | true, true => none

/-- The frame that the bytes of a base part name, with a given optional part; a state code of 0 names none (R20, R27). -/
def frameOf (b0 b1 b2 b3 b4 b5 b6 : Byte) (part : FramePart) : Option Frame :=
  (advOf (b0.extractLsb' 4 2)).map fun state =>
    { sender := stationOf (b0.extractLsb' 0 4), state := state, linkCode := b1, cycle := wordOf b2 b3,
      group := b4.extractLsb' 0 2, profile := b4.extractLsb' 2 3, tripClass := b4.extractLsb' 5 3,
      set := wordOf b5 b6, part := part }

/-- The frame that assembled bytes name by the layout of R20, check bytes included but not judged. None where the length does
not fit the flags, both flags are set, the state code is 0, or the verdict is above 5. -/
def decodeFrame (bytes : List Byte) : Option Frame :=
  match bytes with
  | b0 :: b1 :: b2 :: b3 :: b4 :: b5 :: b6 :: rest =>
    match b0.getLsbD 6, b0.getLsbD 7, rest with
    | false, false, [_, _] => frameOf b0 b1 b2 b3 b4 b5 b6 .base
    | true, false, [p0, p1, p2, p3, p4, p5, p6, _, _] =>
      frameOf b0 b1 b2 b3 b4 b5 b6 (.proposal
        { sequence := p0.extractLsb' 0 4, newProfile := p0.extractLsb' 4 3, newSet := wordOf p1 p2,
          electorate := wordOf p3 p4, effective := wordOf p5 p6 })
    | false, true, [v0, v1, _, _] =>
      (verdictOf v1).bind fun verdict =>
        frameOf b0 b1 b2 b3 b4 b5 b6 (.vote
          { proposer := stationOf (v0.extractLsb' 0 4), sequence := v0.extractLsb' 4 4, verdict := verdict })
    | _, _, _ => none
  | _ => none

/-- The check over the bytes before the last two equals those two (R21). -/
def crcMatches (bytes : List Byte) : Bool :=
  match bytes.reverse with
  | high :: low :: body => crc body.reverse == wordOf low high
  | _ => false

/-- The set and the profile do not pair: one of them is empty or 0 and the other is not (R27, R47). -/
def unpaired (set : StationSet) (profile : ProfileNo) : Bool := (set == 0) != (profile == 0)

/-- A set names no station at or above S (R27). -/
def setBelow (s : StationCount) (set : StationSet) : Bool :=
  match s with
  | .s8 => highByte set == 0
  | .s16 => true

/-- The conditions of R27 that the layout alone does not settle: one of them holds. -/
def malformed (s : StationCount) (f : Frame) : Bool :=
  unpaired f.set f.profile
  || f.tripClass == 7
  || ((f.tripClass != 0) != (f.state == .tripped))
  || (f.state == .tripped && f.set != 0)
  || (f.state == .running && !member f.sender f.set)
  || (f.state == .joined && member f.sender f.set)
  || (f.state == .tripped && (isProposal f.part || isVote f.part))
  || !setBelow s f.set
  || (match f.part with
      | .base => false
      | .proposal p =>
        unpaired p.newSet p.newProfile || !subset p.electorate (f.set ||| p.newSet)
          || !setBelow s p.newSet || !setBelow s p.electorate
      | .vote v => v.proposer == f.sender || decide (countOf s ≤ v.proposer.val))

/-- What the checks of a completed frame come to (R14, R16): valid; failing the link-code check alone; or invalid. -/
inductive FrameCheck where
  | valid (f : Frame)
  | foreignCode (code : Byte)
  | invalid
  deriving DecidableEq, Repr

/-- The checks of R14 on the bytes assembled in window `k`: CRC, sender, link code and the malformed conditions. -/
def checkFrame (l : LinkTable) (k : StationNo) (bytes : List Byte) : FrameCheck :=
  match decodeFrame bytes with
  | none => .invalid
  | some f =>
    if !crcMatches bytes || f.sender != k || malformed l.count f then .invalid
    else if f.linkCode = l.linkCode then .valid f
    else .foreignCode f.linkCode

/-! ## Command arguments (R164) -/

/-- The new running set of a PROPOSE. -/
def proposeSet (args : Vector Byte 8) : StationSet := wordOf args[0] args[1]

/-- The new profile of a PROPOSE, 0 to 255. -/
def proposeProfile (args : Vector Byte 8) : Byte := args[2]

/-- The profile tag of a PUSH, 0 to 15. -/
def pushTag (args : Vector Byte 8) : BitVec 4 := args[1].extractLsb' 4 4

/-- The mode codes and compare values of three legs, from the eight bytes PUSH and PATTERN lay out alike (R164, R166). -/
def legFields (bytes : Vector Byte 8) : PerLeg (BitVec 4 × Word16) :=
  { a := (bytes[0].extractLsb' 0 4, wordOf bytes[2] bytes[3])
    b := (bytes[0].extractLsb' 4 4, wordOf bytes[4] bytes[5])
    c := (bytes[1].extractLsb' 0 4, wordOf bytes[6] bytes[7]) }

/-- The setting a mode code and a compare value give; none where the code names no mode. -/
def legSetting (field : BitVec 4 × Word16) : Option LegSetting :=
  (modeOf field.1).map fun mode => { mode := mode, compare := field.2 }

/-- The settings of three legs, or the first leg (0 for A, 1 for B, 2 for C) whose mode code names no mode or whose compare
value is above `top` (R120). -/
def legSettings (top : Nat) (fields : PerLeg (BitVec 4 × Word16)) : Except (Fin 3) (PerLeg LegSetting) :=
  let ok (field : BitVec 4 × Word16) : Option LegSetting := if field.2.toNat ≤ top then legSetting field else none
  match ok fields.a with
  | none => .error 0
  | some a =>
    match ok fields.b with
    | none => .error 1
    | some b =>
      match ok fields.c with
      | none => .error 2
      | some c => .ok { a := a, b := b, c := c }

/-- Three leg settings in the eight bytes of a PATTERN entry (R166). -/
def legBytes (legs : PerLeg LegSetting) : Vector Byte 8 :=
  #v[modeCode legs.b.mode ++ modeCode legs.a.mode, 0#4 ++ modeCode legs.c.mode,
    lowByte legs.a.compare, highByte legs.a.compare, lowByte legs.b.compare, highByte legs.b.compare,
    lowByte legs.c.compare, highByte legs.c.compare]

/-! ## Table staging (R166) -/

/-- The code of D (R166). -/
def divisorCode : Divisor → BitVec 2
  | .d4 => 0
  | .d8 => 1
  | .d16 => 2

/-- The LINK entry in the staging bytes, with the station number (R166, R153). -/
def linkBytes (l : LinkTable) (number : StationNo) : Vector Byte 8 :=
  #v[0#3 ++ flag l.valid ++ flag (l.polarity == .activeLow) ++ flag (l.count == .s16) ++ divisorCode l.divisor,
    lowByte (BitVec.ofNat 16 l.cycleLength), highByte (BitVec.ofNat 16 l.cycleLength),
    0#1 ++ BitVec.ofNat 3 l.missLimit ++ BitVec.ofNat 4 l.lead,
    l.linkCode,
    stationField number ++ 0#2 ++ l.group,
    BitVec.ofNat 4 l.faultFilter ++ BitVec.ofNat 4 l.starveLimit,
    0]

/-- The LINK entry the staging bytes give, or the number of the first field out of range (R151, R152). The valid flag of the
result is set; positions marked read-only are not examined. -/
def linkOf (t : Vector Byte 8) : Except Nat LinkTable :=
  let code := t[0].extractLsb' 0 2
  let count : StationCount := if t[0].getLsbD 2 then .s16 else .s8
  let length := (wordOf t[1] t[2]).toNat
  let lead := (t[3].extractLsb' 0 4).toNat
  let misses := (t[3].extractLsb' 4 3).toNat
  if code = 3 then .error 1
  else if length < 32 + 176 * countOf count ∨ 8191 < length then .error 3
  else if lead < 3 then .error 4
  else if misses < 1 ∨ 4 < misses then .error 5
  else .ok
    { divisor := if code = 0 then .d4 else if code = 1 then .d8 else .d16
      count := count
      cycleLength := length
      lead := lead
      missLimit := misses
      linkCode := t[4]
      group := t[5].extractLsb' 0 2
      starveLimit := (t[6].extractLsb' 0 4).toNat
      faultFilter := (t[6].extractLsb' 4 4).toNat
      polarity := if t[0].getLsbD 3 then .activeLow else .activeHigh
      valid := true }

/-- The code of N (R166). -/
def ratioCode : Ratio → BitVec 2
  | .n1 => 0
  | .n2 => 1
  | .n4 => 2

/-- The code of a load-point setting (R166). -/
def loadCode : LoadSetting → BitVec 2
  | .valley => 0
  | .peak => 1
  | .both => 2

/-- A PROFILE entry in the staging bytes (R166). -/
def profileBytes (p : Profile) : Vector Byte 8 :=
  #v[flag (p.source == .pattern) ++ loadCode p.loadSetting ++ flag p.interleave ++ flag (p.shape == .saw)
      ++ ratioCode p.ratio ++ flag p.configured,
    BitVec.ofNat 8 p.deadTime,
    0#4 ++ flag p.patternRepeat ++ flag p.enables.c ++ flag p.enables.b ++ flag p.enables.a,
    0#2 ++ BitVec.ofNat 6 p.patternStart,
    0#1 ++ BitVec.ofNat 7 p.patternLength,
    0, 0, 0]

/-- The PROFILE entry the staging bytes give, or the number of the first field out of range (R155, R166). -/
def profileOf (t : Vector Byte 8) : Except Nat Profile :=
  let ratio := t[0].extractLsb' 1 2
  let load := t[0].extractLsb' 5 2
  let start := (t[3].extractLsb' 0 6).toNat
  let length := (t[4].extractLsb' 0 7).toNat
  if ratio = 3 then .error 2
  else if t[1] = 0 then .error 4
  else if load = 3 then .error 6
  else if length = 0 ∨ 64 < start + length then .error 10
  else .ok
    { configured := t[0].getLsbD 0
      ratio := if ratio = 0 then .n1 else if ratio = 1 then .n2 else .n4
      shape := if t[0].getLsbD 3 then .saw else .triangle
      deadTime := t[1].toNat
      interleave := t[0].getLsbD 4
      loadSetting := if load = 0 then .valley else if load = 1 then .peak else .both
      enables := { a := t[2].getLsbD 0, b := t[2].getLsbD 1, c := t[2].getLsbD 2 }
      source := if t[0].getLsbD 7 then .pattern else .queue
      patternStart := start
      patternLength := length
      patternRepeat := t[2].getLsbD 3 }

/-- The code of an action (R166). -/
def actionCode : Action → BitVec 2
  | .ignore => 0
  | .report => 1
  | .respace => 2
  | .trip => 3

/-- A CAUSE row in the staging bytes (R166). -/
def causeBytes (r : CauseRow) : Vector Byte 8 :=
  #v[0#6 ++ actionCode r.action, 0#7 ++ flag r.drive, 0, 0, 0, 0, 0, 0]

/-- The action is allowed for the row with this index (R134). -/
def actionAllowed (index : Fin 9) (action : Action) : Bool :=
  match action with
  | .ignore => decide (index.val ≤ 6)
  | .report => decide (index.val ≤ 7)
  | .respace => index == 5
  | .trip => true

/-- The CAUSE row the staging bytes give for an index, or the number of the first field out of range (R134, R156). -/
def causeOf (index : Fin 9) (t : Vector Byte 8) : Except Nat CauseRow :=
  let action : Option Action :=
    if t[0] = 0 then some .ignore else if t[0] = 1 then some .report else if t[0] = 2 then some .respace
    else if t[0] = 3 then some .trip else none
  let drive := t[1].getLsbD 0
  match action with
  | none => .error 1
  | some action =>
    if !actionAllowed index action then .error 1
    else if drive && (action != .trip || index == 4) then .error 2
    else .ok { action := action, drive := drive }

/-- The PATTERN entry the staging bytes give, or the number of the first mode field that names no mode (R157). -/
def patternOf (t : Vector Byte 8) : Except Nat (PerLeg LegSetting) :=
  match legSettings 65535 (legFields t) with
  | .ok legs => .ok legs
  | .error leg => .error (2 * leg.val + 1)

/-- The code of a presence (R166). -/
def presenceCode : Presence → BitVec 2
  | .unseen => 0
  | .present => 1
  | .absent => 2

/-- The frame code of an entry's advertised state, 0 when UNSEEN (R166). -/
def entryStateCode : Option AdvState → BitVec 2
  | none => 0
  | some st => advCode st

/-- A roster entry in the staging bytes (R166). -/
def rosterBytes (e : RosterEntry) : Vector Byte 8 :=
  #v[0#2 ++ e.group ++ entryStateCode e.state ++ presenceCode e.presence,
    0#2 ++ e.tripClass ++ e.profile,
    lowByte e.set, highByte e.set, lowByte e.lastHeard, highByte e.lastHeard, BitVec.ofNat 8 e.misses, 0]

/-- The slot in the first eight bytes of a SLOT read, TDATA0-TDATA7 (R75, R166). While the sequence is unassigned its bits show 0
(log entry 28: DESIGN CHOICE). -/
def slotLowBytes (c : Slot) : Vector Byte 8 :=
  #v[ownVerdictCode c.verdict ++ flag c.sequence.isSome ++ flag c.automatic ++ flag c.remote ++ slotCode c.state,
    c.sequence.getD 0 ++ stationField c.proposer,
    lowByte c.newSet, highByte c.newSet, 0#2 ++ c.baseProfile ++ c.newProfile, lowByte c.baseSet, highByte c.baseSet,
    lowByte c.electorate]

/-- The slot in the last eight bytes of a SLOT read, ARG0-ARG7 (R166). -/
def slotHighBytes (c : Slot) : Vector Byte 8 :=
  #v[highByte c.electorate, lowByte c.effective, highByte c.effective, lowByte c.accepts, highByte c.accepts,
    lowByte c.firstSeen, highByte c.firstSeen, 0]

/-! ## The report entry (R172) -/

/-- A number as a detail byte. -/
def natByte (n : Nat) : Byte := BitVec.ofNat 8 n

/-- The index of a cause as a detail byte. -/
def causeByte (c : Cause) : Byte := natByte (causeIndex c).val

/-- Detail C of the trip reports: the mismatch kind, 0 with none (R172). -/
def kindByte : Option MismatchKind → Byte
  | none => 0
  | some .outsider => 1
  | some .pair => 2

/-- The code of a withdrawal cause (R172). -/
def withdrawalByte : WithdrawalCause → Byte
  | .leave => 1
  | .restart => 2
  | .linkMismatch => 3
  | .windowConflict => 4
  | .numberTaken => 5
  | .joinAborted => 6

/-- The code of a LINK_MISMATCH reason (R172). -/
def mismatchByte : LinkMismatchReason → Byte
  | .lockFailed => 1
  | .noNumber => 2
  | .foreignCode => 3
  | .markTimeout => 4
  | .shortInterval => 5

/-- The code of an outcome (R172). -/
def outcomeByte : ChangeOutcome → Byte
  | .applied => 1
  | .lapsed => 2
  | .refused => 3
  | .memberLost => 4
  | .proposerLost => 5
  | .conflict => 6
  | .withdrawn => 7
  | .abandoned => 8
  | .slipped => 9

/-- Detail C of CHANGE_CLOSED (R172). -/
def reasonByte : CloseReason → Byte
  | .noReason => 0
  | .refusal v => 0#5 ++ verdictCode v
  | .notice .absence => 1
  | .notice .trip => 2
  | .notice .regroup => 3
  | .notice .joined => 4
  | .contended => 1
  | .trip => 1
  | .withdrawal => 2

/-- Kind and details A, B and C of a report (R172). The sequence bits of a CHANGE_CLOSED with the sequence unassigned are 0 (log
entry 28: DESIGN CHOICE). -/
def bodyBytes : ReportBody → Byte × Byte × Byte × Byte
  | .joinedLink present => (1, natByte present, 0, 0)
  | .linkAlone => (2, 0, 0, 0)
  | .leftLink cause left => (3, withdrawalByte cause, stateDetail left, 0)
  | .joinAborted input => (4, natByte input.val, 0, 0)
  | .numberTaken => (5, 0, 0, 0)
  | .linkMismatch reason foreign state => (6, mismatchByte reason, foreign, stateDetail state)
  | .windowConflict failures state => (7, natByte failures, stateDetail state, 0)
  | .peerPresent state group wasAbsent => (8, 0#6 ++ advCode state, 0#6 ++ group, 0#7 ++ flag wasAbsent)
  | .peerAbsent lastHeard member => (9, lowByte lastHeard, highByte lastHeard, 0#7 ++ flag member)
  | .cycleSlip held closed => (10, lowByte held, highByte held, 0#7 ++ flag closed)
  | .cycleDiscord frames distinct => (11, natByte frames, natByte distinct, 0)
  | .viewDiscord frames containsSelf => (12, natByte frames, 0#7 ++ flag containsSelf, 0)
  | .changeOpened toEffective sequence remote automatic verdict =>
    (13, natByte toEffective, 0#1 ++ flag automatic ++ flag remote ++ 0#1 ++ sequence, 0#5 ++ ownVerdictCode verdict)
  | .changeClosed outcome sequence remote automatic reason =>
    (14, outcomeByte outcome,
      flag sequence.isNone ++ flag automatic ++ flag remote ++ 0#1 ++ sequence.getD 0, reasonByte reason)
  | .tripped cause drive left kind => (15, causeByte cause, 0#4 ++ stateCode left ++ flag drive, kindByte kind)
  | .tripAdded cause drive kind => (16, causeByte cause, 0#7 ++ flag drive, kindByte kind)
  | .tripCleared first causes cycles =>
    (17, 0#3 ++ flag (hasCause .host causes) ++ BitVec.ofNat 4 (first.elim 15 (fun c => (causeIndex c).val)),
      causes.extractLsb' 0 8, natByte (min cycles 255))
  | .causeSeen cause state kind => (18, causeByte cause, stateDetail state, kindByte kind)
  | .staleSetpoint discarded tag live => (19, natByte discarded, 0#5 ++ tag, 0#5 ++ live)
  | .starveBegin live limit => (20, 0#5 ++ live, natByte limit, 0)
  | .patternEnd live start length => (21, 0#5 ++ live, natByte start, natByte length)

/-- The eight bytes of a report entry (R172). -/
def reportBytes (r : Report) : Vector Byte 8 :=
  let (kind, a, b, c) := bodyBytes r.body
  #v[kind, 0#7 ++ flag r.gap, lowByte r.cycle, highByte r.cycle, natByte r.subject.val, a, b, c]

end Sys2Proof.Machine
end

