-- ==== Sys2Proof/Machine/Gate.lean ====
section
/-! DEFINITION. The Gate Stage and the Carrier Unit: demand, turn-off and turn-on, forced off (07_gate_stage.md), and the
carrier value, start, re-phase and stop (06_carriers_and_interleave.md). -/

namespace Sys2Proof.Machine

/-! ## The carrier value -/

/-- The position that follows `a` by one tick (R95). -/
def nextPosition (period a : Nat) : Nat := if a + 1 = period then 0 else a + 1

/-- The position that `a` follows (R95). -/
def previousPosition (period a : Nat) : Nat := if a = 0 then period - 1 else a - 1

/-- The carrier value of a position under a shape (R95); 0 while the carrier is stopped (R93). -/
def carrierValue (shape : Option Shape) (period position : Nat) : Nat :=
  match shape with
  | none => 0
  | some .saw => position
  | some .triangle => if position ≤ period / 2 then position else period - position

/-- The carrier value handed to the Gate Stage. -/
def carrierNow (s : State) : Nat := carrierValue s.carrier.shape s.carrier.period s.carrier.position

/-- The load positions under a load-point setting (R101, R104). -/
def loadPositions (setting : Option LoadSetting) (period : Nat) : List Nat :=
  match setting with
  | none => []
  | some .valley => [0]
  | some .peak => [period / 2]
  | some .both => [0, period / 2]

/-! ## Demand, turn-off and turn-on -/

/-- The gate a mode demands at a carrier value, if any (R109). -/
def demand (mode : LegMode) (compare : Word16) (value : Nat) : Option Side :=
  match mode with
  | .switch => if value < compare.toNat then some .upper else some .lower
  | .upperOn => some .upper
  | .lowerOn => some .lower
  | .off => none

/-- A judgement of one leg under a demand (R111, R112): a gate whose demand has fallen turns off at once and its wait is
cancelled; a gate demanded that is off and not waiting becomes the pending gate with count 0; a gate demanded that is on, or
already waiting, is left. -/
def judgeLeg (wanted : Option Side) (l : LegState) : LegState :=
  match wanted with
  | none => { l with upper := false, lower := false, pending := none, count := 0 }
  | some .upper =>
    if l.upper then { l with lower := false, pending := none, count := 0 }
    else if l.pending = some .upper then { l with lower := false }
    else { l with lower := false, pending := some .upper, count := 0 }
  | some .lower =>
    if l.lower then { l with upper := false, pending := none, count := 0 }
    else if l.pending = some .lower then { l with upper := false }
    else { l with upper := false, pending := some .lower, count := 0 }

/-- The pending gate turns on (R112). -/
def turnOn (l : LegState) : LegState :=
  match l.pending with
  | none => l
  | some .upper => { l with upper := true, pending := none, count := 0 }
  | some .lower => { l with lower := true, pending := none, count := 0 }

/-- A leg takes its effective mode and compare value from the live setpoint, or OFF and 0 when the profile leaves it unused
(R108). -/
def takeSetting (enabled : Bool) (setting : LegSetting) (l : LegState) : LegState :=
  if enabled then { l with mode := setting.mode, compare := setting.compare } else { l with mode := .off, compare := 0 }

/-- Every leg judged against the carrier value as it stands (R110); nothing while not RUNNING (R116). -/
def judgeGates (s : State) : State :=
  if s.station = .running then
    { s with gate := { s.gate with
        legs := s.gate.legs.map fun l => judgeLeg (demand l.mode l.compare (carrierNow s)) l } }
  else s

/-- The carrier has advanced to a position, and the legs are judged there (R95, R110). -/
def advanceTo (position : Nat) (s : State) : State :=
  judgeGates { s with carrier := { s.carrier with position := position, setThisTick := false } }

/-- The legs take their modes and compare values from the live setpoint and the live profile (R108). -/
def takeLive (s : State) : State :=
  if s.station = .running then
    let enables := (liveProfile s).enables
    { s with gate := { s.gate with legs :=
        { a := takeSetting enables.a s.setpoint.live.a s.gate.legs.a
          b := takeSetting enables.b s.setpoint.live.b s.gate.legs.b
          c := takeSetting enables.c s.setpoint.live.c s.gate.legs.c } } }
  else s

/-- The Gate Stage after the live setpoint has changed: the legs take it and are judged (R110, R113). -/
def gateLoad (s : State) : State := judgeGates (takeLive s)

/-- A wait whose count has already reached the dead time ends with its gate on (R115). -/
def ripen (deadTime : Nat) (l : LegState) : LegState :=
  if l.pending ≠ none ∧ deadTime ≤ l.count then turnOn l else l

/-- The Gate Stage at an application that leaves the station RUNNING (R115): the new dead time and leg enables, one judgement,
and the waits kept across it against the new dead time. -/
def gateApply (s : State) : State :=
  let d := (liveProfile s).deadTime
  let s := gateLoad { s with gate := { s.gate with deadTime := d } }
  { s with gate := { s.gate with legs := s.gate.legs.map (ripen d) } }

/-- The Gate Stage forced off (R116). -/
def gateOff (s : State) : State := { s with gate := Gate.off }

/-! ## Start and stop of the carrier -/

/-- The phase offset of a profile for a station and a view (R96). -/
def phaseOffset (p : Profile) (period : Nat) (k : StationNo) (view : StationSet) : Nat :=
  if p.interleave then rank k view * period / size view else 0

/-- The carrier at an application that leaves the station RUNNING: the live profile's period, shape and load-point setting, and
the position set to the offset (R98). -/
def carrierStart (s : State) : State :=
  let p := liveProfile s
  let period := periodOf s.tables.link p
  let offset := phaseOffset p period s.number s.change.view
  { s with carrier :=
      { running := true, period := period, shape := some p.shape, loadSetting := some p.loadSetting, offset := offset,
        position := offset, setThisTick := true, rerun := 0 } }

/-- The carrier stopped (R99). -/
def carrierStop (s : State) : State := { s with carrier := Carrier.stopped }

/-- The natural position of a running carrier: where the tick's advance would put it (R100). -/
def naturalPosition (c : Carrier) : Nat := nextPosition c.period c.position

/-- The correction of a mark re-phase, (o - natural position) mod P (R100). -/
def correction (c : Carrier) : Nat := (c.offset + (c.period - naturalPosition c)) % c.period

/-- Whether the mark re-phase signals a load point (R100, R101): the correction is at most H, and a load position lies among
the positions from the natural position up to o, those left out that an earlier backward correction has the carrier run again
(log entry 39: DESIGN CHOICE). -/
def rephaseLoads (c : Carrier) : Bool :=
  decide (correction c ≤ c.period / 2) &&
    (loadPositions c.loadSetting c.period).any fun x =>
      let distance := (x + (c.period - naturalPosition c)) % c.period
      decide (c.rerun ≤ distance ∧ distance ≤ correction c)

/-- The advances over positions already passed that are still to be made after a mark re-phase (R100): a backward correction runs
the positions after o up to the old one again; a forward one, or none, passes some of those that were left. -/
def rerunAfter (c : Carrier) : Nat :=
  if correction c ≤ c.period / 2 then c.rerun - (correction c + 1) else c.rerun + (c.period - correction c) - 1

end Sys2Proof.Machine
end

