-- ==== Sys2Proof/Machine/Setpoint.lean ====
section
/-! DEFINITION. The Setpoint Unit (08_setpoint_supply.md): loads from the queue and from the pattern table, starvation, and the
resets. A load answers with the state it leaves and whether it raises the STARVED cause, which its caller gives to the Trip
Unit. -/

namespace Sys2Proof.Machine

/-- The starve count after a starved load, under a starve limit (R125). -/
def starveNext (limit count : Nat) : Nat := if 1 ≤ limit ∧ count < limit then count + 1 else count

/-- Whether a starved load raises the STARVED cause: it brings the count to the limit (R125). -/
def starveRaises (limit count : Nat) : Bool := decide (1 ≤ limit ∧ count < limit ∧ count + 1 = limit)

/-- A starved load (R125). -/
def starvedLoad (s : State) : State × Bool :=
  let limit := s.tables.link.starveLimit
  let count := s.setpoint.starve
  let s' := if s.setpoint.starveRun then s else postSelf (.starveBegin s.change.profile limit) s
  ({ s' with setpoint := { s'.setpoint with starveRun := true, starve := starveNext limit count } },
    starveRaises limit count)

/-- The stale records at the head of the queue removed, with one STALE_SETPOINT when there are any (R124, stage 1). -/
def discardStale (s : State) : State :=
  let live := s.change.profile
  match s.setpoint.queue.takeWhile (fun r => r.tag != live) with
  | [] => s
  | first :: others =>
    let s := postSelf (.staleSetpoint (others.length + 1) first.tag live) s
    { s with setpoint := { s.setpoint with queue := s.setpoint.queue.dropWhile (fun r => r.tag != live) } }

/-- A load under a QUEUE profile (R124): discard, then take the head or starve. -/
def queueLoad (s : State) : State × Bool :=
  let s := discardStale s
  match s.setpoint.queue with
  | [] => starvedLoad s
  | r :: rest =>
    ({ s with setpoint := { s.setpoint with queue := rest, live := r.legs, starve := 0, starveRun := false } }, false)

/-- The position after a pattern entry has been made live (R126). -/
def patternNext (p : Profile) (position : Nat) : Nat :=
  if p.patternRepeat = true ∧ position + 1 = p.patternLength then 0 else position + 1

/-- A load under a PATTERN profile (R126). -/
def patternLoad (s : State) : State :=
  let p := liveProfile s
  if s.setpoint.ended then s
  else if s.setpoint.position < p.patternLength then
    { s with setpoint := { s.setpoint with
        live := s.tables.pattern.toList.getD (p.patternStart + s.setpoint.position) allOff
        position := patternNext p s.setpoint.position } }
  else if p.patternRepeat then s
  else
    let s := postSelf (.patternEnd s.change.profile p.patternStart p.patternLength) s
    { s with setpoint := { s.setpoint with live := allOff, ended := true } }

/-- A load, by the source of the live profile (R123). -/
def load (s : State) : State × Bool :=
  match (liveProfile s).source with
  | .queue => queueLoad s
  | .pattern => (patternLoad s, false)

/-- The resets of an application, the queue kept (R118, R127). -/
def setpointReset (s : State) : State :=
  { s with setpoint := { SetpointUnit.empty with queue := s.setpoint.queue } }

/-- The Setpoint Unit at its power-on values: trip entry, withdrawal and retirement (R118, R127, R129). -/
def setpointClear (s : State) : State := { s with setpoint := SetpointUnit.empty }

end Sys2Proof.Machine
end

