-- ==== Sys2Proof/Machine/Roster.lean ====
section
/-! DEFINITION. The Roster (03_the_roster.md): entries, standing, lost members and mismatches. The functions here judge; what a
loss does to the Trip Unit and the Change Unit is in Machine/Trip.lean and Machine/Change.lean. -/

namespace Sys2Proof.Machine

/-- The entry of a station number. -/
def entryOf (s : State) (k : StationNo) : RosterEntry := s.roster.entries[k]

/-- The entry of a station number replaced. -/
def setEntry (k : StationNo) (e : RosterEntry) (s : State) : State :=
  { s with roster := { s.roster with entries := s.roster.entries.set k.val e } }

/-- The entry as another block reads it: PRESENT (R36). -/
def isPresent (e : RosterEntry) : Bool := e.presence == .present

/-- PRESENT and advertising a state (R36). -/
def advertises (e : RosterEntry) (st : AdvState) : Bool := isPresent e && e.state == some st

/-- PRESENT in a group other than the one given (R36). -/
def inOtherGroup (group : BitVec 2) (e : RosterEntry) : Bool := isPresent e && e.group != group

/-- In standing: PRESENT, in the group, and advertising JOINED or RUNNING (R36). -/
def standing (group : BitVec 2) (e : RosterEntry) : Bool :=
  isPresent e && e.group == group && (e.state == some .joined || e.state == some .running)

/-- A peer is in standing (R36). -/
def inStanding (s : State) (k : StationNo) : Bool := standing s.tables.link.group (entryOf s k)

/-- An entry makes a member of the view lost (R38). -/
def lostEntry (group : BitVec 2) (e : RosterEntry) : Bool :=
  match e.presence with
  | .unseen => false
  | .absent => true
  | .present => e.group != group || e.state != some .running

/-- Station `k` is a lost member of the view (R38). -/
def isLost (s : State) (k : StationNo) : Bool :=
  member k s.change.view && k != s.number && lostEntry s.tables.link.group (entryOf s k)

/-- The lost set brought up to date for one entry (R38). -/
def judgeLost (k : StationNo) (s : State) : State :=
  { s with roster := { s.roster with lost := if isLost s k then adjoin k s.roster.lost else remove k s.roster.lost } }

/-- A member that an application admits and whose entry still reads JOINED in the group, as it must at that mark. It is judged from
its next frame (R175), and the group starts at the mark (R147; log entry 34: DESIGN CHOICE). -/
def entering (admitted : StationSet) (s : State) (k : StationNo) : Bool :=
  member k admitted && advertises (entryOf s k) .joined && !inOtherGroup s.tables.link.group (entryOf s k)

/-- The lost set judged over the whole view, after the view has changed by the admission of a set (R39). -/
def judgeView (admitted : StationSet) (s : State) : State :=
  { s with roster := { s.roster with lost := setOf fun k => isLost s k && !entering admitted s k } }

/-- The set of newly lost members, from the lost sets before and after a judgement (R38, R39). -/
def newlyLost (before after : StationSet) : StationSet := without after before

/-- The number of PRESENT entries (R83). -/
def presentCount (s : State) : Nat := (stations.filter (fun k => isPresent (entryOf s k))).length

/-- The entry a valid frame leaves (R33). -/
def entryFrom (f : Frame) : RosterEntry :=
  { presence := .present, state := some f.state, group := f.group, profile := f.profile, set := f.set,
    tripClass := f.tripClass, lastHeard := f.cycle, misses := 0 }

/-- A valid frame updates the entry of its sender, and PEER_PRESENT is posted when the entry was not PRESENT (R33). -/
def hearFrame (k : StationNo) (f : Frame) (s : State) : State :=
  let old := entryOf s k
  let s := setEntry k (entryFrom f) s
  if isPresent old then s else post (.peerPresent f.state f.group (old.presence == .absent)) k s

/-- A miss for the entry of `k`, with the report of an absence (R34). -/
def missFrame (k : StationNo) (s : State) : State :=
  let e := entryOf s k
  match e.presence with
  | .unseen | .absent => s
  | .present =>
    if e.misses + 1 < s.tables.link.missLimit then setEntry k { e with misses := e.misses + 1 } s
    else
      let s := setEntry k { e with presence := .absent, misses := s.tables.link.missLimit } s
      post (.peerAbsent e.lastHeard (member k s.change.view)) k s

/-- The cause a notice names for a station that has departed or is newly lost, from its entry after the update (R37, R59). -/
def noticeCause (group : BitVec 2) (e : RosterEntry) : NoticeCause :=
  if !isPresent e then .absence
  else if e.group != group then .regroup
  else if e.state == some .tripped then .trip
  else .joined

/-- The mismatch condition a frame meets at a RUNNING station, if any (R41). -/
def mismatchOf (s : State) (f : Frame) : Option MismatchKind :=
  if s.station = .running ∧ f.group = s.tables.link.group ∧ f.state = .running then
    if member f.sender s.change.view = false then some .outsider
    else if f.set ≠ s.change.view ∨ f.profile ≠ s.change.profile then some .pair
    else none
  else none

/-- The entry TREAD returns for an index of the ROSTER table: UNSEEN for the own number, for numbers at or above S, and in
OFFLINE (R44). -/
def rosterView (s : State) (k : StationNo) : RosterEntry :=
  if k = s.number ∨ stationCount s ≤ k.val ∨ s.station = .offline then RosterEntry.unseen else entryOf s k

end Sys2Proof.Machine
end

