-- ==== Sys2Proof/Machine/Slot.lean ====
section
/-! DEFINITION. The change slot (04_group_changes.md): its closing, the tally, the automatic DROP and its re-check. -/

namespace Sys2Proof.Machine

/-- The slot replaced. -/
def setSlot (c : Slot) (s : State) : State := { s with change := { s.change with slot := c } }

/-- A change closes: CHANGE_CLOSED is posted with its outcome, subject and reason, and the slot returns to NONE with its
defaults (R66, R74). -/
def closeSlot (outcome : ChangeOutcome) (subject : StationNo) (reason : CloseReason) (s : State) : State :=
  let c := s.change.slot
  setSlot Slot.vacant (post (.changeClosed outcome c.sequence c.remote c.automatic reason) subject s)

/-- The slot closed ABANDONED if it holds a change (R67); it is NONE with its defaults in either case (R46). -/
def abandonSlot (reason : CloseReason) (s : State) : State :=
  if s.change.slot.state = .vacant then setSlot Slot.vacant s else closeSlot .abandoned s.change.slot.proposer reason s

/-- Every electorate member other than the proposer is in accepts seen (R56). -/
def tallyComplete (c : Slot) : Bool := subset (remove c.proposer c.electorate) c.accepts

/-- The tally judged: an OPEN slot whose tally is complete becomes AGREED (R56). -/
def judgeTally (c : Slot) : Slot := if c.state = .opened ∧ tallyComplete c then { c with state := .agreed } else c

/-- The stations of `set` that an electorate keeps: the station itself, and the peers in standing (R49, R68). -/
def electorateOf (s : State) (set : StationSet) : StationSet :=
  setOf fun k => member k set && (k == s.number || inStanding s k)

/-- A local proposal as the slot takes it (R48, R68). While it is PENDING its E is unassigned, and the slot shows 0 for it (R46; log
entry 28: DESIGN CHOICE). -/
def localProposal (s : State) (automatic : Bool) (newSet : StationSet) (newProfile : ProfileNo) (electorate : StationSet) :
    Slot :=
  { Slot.vacant with
    state := .pending, automatic := automatic, proposer := s.number, newSet := newSet, newProfile := newProfile,
    baseSet := s.change.view, baseProfile := s.change.profile, electorate := electorate, firstSeen := s.link.cycle }

/-- The conditions of R68 for building an automatic DROP. -/
def dropDue (s : State) : Bool :=
  s.station == .running && (rowOf s.tables .peerLoss).action == .respace && s.change.slot.state == .vacant
    && s.roster.lost != 0

/-- The automatic DROP (R68). -/
def dropProposal (s : State) : Slot :=
  let kept := without s.change.view s.roster.lost
  localProposal s true kept s.change.profile (electorateOf s kept)

/-- The re-check of R70: the automatic DROP is built when it is due. -/
def recheck (s : State) : State := if dropDue s then setSlot (dropProposal s) s else s

/-- A change closes, and the re-check follows (R66, R70). -/
def closeAndRecheck (outcome : ChangeOutcome) (subject : StationNo) (reason : CloseReason) (s : State) : State :=
  recheck (closeSlot outcome subject reason s)

end Sys2Proof.Machine
end

