-- ==== Sys2Proof/Machine/Trip.lean ====
section
/-! DEFINITION. The Trip Unit (09_trips.md): taking a cause, trip entry, added causes, the filtered levels; and a load with the
STARVED cause it may raise. -/

namespace Sys2Proof.Machine

/-- Trip entry (R136, R137): TRIPPED posted, then CHANGE_CLOSED ABANDONED where the slot held a change; the record set; gates
forced off, carrier stopped, setpoints and queue cleared, view and lost set emptied. -/
def tripEntry (cause : Cause) (drive : Bool) (subject : StationNo) (kind : Option MismatchKind) (s : State) : State :=
  let s := post (.tripped cause drive s.station kind) subject s
  let s := abandonSlot .trip s
  let s := setpointClear (carrierStop (gateOff s))
  { s with
    station := .tripped
    trip := { s.trip with
      first := some cause, causes := causeBit cause, entry := s.link.cycle, drive := drive, settling := false,
      settled := 0 }
    change := { s.change with view := 0, profile := 0 }
    roster := { s.roster with lost := 0 }
    now := { s.now with entered := true } }

/-- A CLEAR in its settle ends refused for a fault input that has joined the cause set (R145). -/
def endClearOnFault (cause : Cause) (s : State) : State :=
  match cause with
  | .fault input =>
    if s.trip.settling then
      setResult .refusedActive (natByte input.val) { s with trip := { s.trip with settling := false, settled := 0 } }
    else s
  | .tripLine | .peerLoss | .mismatch | .starved | .host => s

/-- A cause is added to the cause set of a TRIPPED station (R138). -/
def addCause (cause : Cause) (subject : StationNo) (kind : Option MismatchKind) (s : State) : State :=
  if hasCause cause s.trip.causes then s
  else
    let drive := s.trip.drive || (rowOf s.tables cause).drive
    let s := { s with trip := { s.trip with causes := s.trip.causes ||| causeBit cause, drive := drive } }
    endClearOnFault cause (post (.tripAdded cause drive kind) subject s)

/-- A trip claim, with the drive flag of its row, taken against the state it finds (R136, R77). -/
def tripClaim (cause : Cause) (drive : Bool) (subject : StationNo) (kind : Option MismatchKind) (s : State) : State :=
  match s.station with
  | .joined | .running => tripEntry cause drive subject kind s
  | .tripped => addCause cause subject kind s
  | .offline | .listening => s

/-- The cause is evaluated in the station state (R133). HOST is evaluated wherever STOP is taken; the FAULT causes of a
LISTENING station are handled by acquisition (R85). -/
def evaluated (cause : Cause) (st : StationState) : Bool :=
  match cause, st with
  | .fault _, .joined | .fault _, .running | .fault _, .tripped => true
  | .tripLine, .joined | .tripLine, .running => true
  | .peerLoss, .running | .peerLoss, .tripped => true
  | .mismatch, .running | .mismatch, .tripped => true
  | .starved, .running | .starved, .tripped => true
  | .host, .joined | .host, .running | .host, .tripped => true
  | _, _ => false

/-- A raised cause is taken against its row and the station state (R133, R135). -/
def takeCause (cause : Cause) (subject : StationNo) (kind : Option MismatchKind) (s : State) : State :=
  if evaluated cause s.station then
    let row := rowOf s.tables cause
    match row.action with
    | .ignore | .respace => s
    | .report => post (.causeSeen cause s.station kind) subject s
    | .trip => tripClaim cause row.drive subject kind s
  else s

/-- A cause that names the station itself is taken at once (R148). -/
def takeOwnCause (cause : Cause) (s : State) : State := takeCause cause s.number none s

/-- The row of a cause makes something of it in a station state: CAUSE_SEEN or a trip claim (R133, R135). -/
def actsOn (cause : Cause) (s : State) : Bool :=
  evaluated cause s.station &&
    match (rowOf s.tables cause).action with
    | .report | .trip => true
    | .ignore | .respace => false

/-- Something waits for the other events of its tick (R28, R139). -/
def postpone (p : Postponed) (s : State) : State := { s with now := { s.now with waiting := s.now.waiting ++ [p] } }

/-- A raised cause waits for the other events of its tick (R139). -/
def holdCause (cause : Cause) (subject : StationNo) (kind : Option MismatchKind) (s : State) : State :=
  postpone (.cause { cause := cause, subject := subject, kind := kind }) s

/-- While other events of the tick wait, a cause with something to do may meet them (R139). -/
def mayMeet (cause : Cause) (s : State) : Bool := !s.pending.isEmpty && actsOn cause s

/-- A cause that a frame, a window end or a mark raises (R133, R139). While other events of the tick wait, it is open whether the
Trip Unit takes the cause at once or after them (log entry 32). -/
def raiseCause (cause : Cause) (subject : StationNo) (kind : Option MismatchKind) (s : State) : State :=
  if mayMeet cause s then
    let (atOnce, s) := chooseFirst s
    if atOnce then takeCause cause subject kind s else holdCause cause subject kind s
  else takeCause cause subject kind s

/-- The command may trip or withdraw a RUNNING station (R88, R133, R142). A code written to COMMAND is the command it issues: RESTART
or STOP (R162). -/
def mayClaim : Instr → Bool
  | .restart | .stop | .markAccepted _ | .markTimeout | .frameReceived _ _ | .windowEnd _ | .filteredLevelChange _ => true
  | .registerWrite address value => address == 0x03 && (value == 0x03 || value == 0x08)
  | .powerOn _ | .nop | .join | .leave | .propose | .hold | .release | .clear | .push | .flush | .tread | .twrite
  | .recallResult | .unknownCommand _ | .reportRead | .timerReachesL _ | .deferredMarkStart | .markDriveEnd
  | .lineDisturbance _ | .loneStart | .ownWindowStart | .loadPoint _ | .compareCrossing _ | .deadTimeElapsed _ _
  | .clearSample _ | .rstnLow | .receptionError _ | .readbackMismatch => false

/-- The STARVED cause, raised when a load has brought the count to the limit (R125). A trip entry or a withdrawal of the same tick
comes before it (R129, R139): while a command that may make one waits, it is taken after the events of the tick, against the state
they leave. With any other event it meets in either order, as a PUSH or a FLUSH does (R122; log entry 32). -/
def raiseStarved (raised : Bool) (s : State) : State :=
  if raised then
    if s.pending.any mayClaim && actsOn .starved s then holdCause .starved s.number none s
    else raiseCause .starved s.number none s
  else s

/-! ## Loads of a running carrier -/

/-- A carrier that reaches a position and a load there: the advance and the load are each judged by the Gate Stage, the load
first with the carrier at the position before (R105, R110, R123). The second value says that the load raised the STARVED
cause. -/
def loadAt (position : Nat) (loadFirst : Bool) (s : State) : State × Bool :=
  if loadFirst then
    let (s, raised) := load { s with carrier := { s.carrier with position := previousPosition s.carrier.period position } }
    (advanceTo position (gateLoad s), raised)
  else
    let (s, raised) := load (advanceTo position s)
    (gateLoad s, raised)

/-- A load position reached by an advance: which of the two is judged first is open (R110; log entry 30). -/
def advanceAndLoad (position : Nat) (s : State) : State × Bool :=
  let (loadFirst, s) := chooseFirst s
  loadAt position loadFirst s

/-- The carrier keeps how many advances a mark re-phase leaves it to run again (R100). -/
def noteRerun (s : State) : State := { s with carrier := { s.carrier with rerun := rerunAfter s.carrier } }

/-- The mark re-phase of the carrier (R100, R101): the position set to the offset, the legs judged, and one load where the
correction carries the carrier over a load position. With a correction of 0 that is an ordinary advance; a forward correction
loads with the carrier at the offset. A stopped carrier, or one set by an application in this tick, is left (R102). The second
value says that the load raised the STARVED cause. -/
def markRephase (s : State) : State × Bool :=
  let c := s.carrier
  if c.running = true ∧ c.setThisTick = false then
    if rephaseLoads c then
      if correction c = 0 then advanceAndLoad c.offset (noteRerun s) else loadAt c.offset false (noteRerun s)
    else (advanceTo c.offset (noteRerun s), false)
  else (s, false)

/-! ## Filtered levels (R132) -/

/-- Ticks for which an input must hold the opposite level, 4 f + 1 (R132). -/
def filterTicks (s : State) : Nat := 4 * s.tables.link.faultFilter + 1

/-- The filtered level of an input takes the opposite level, and its run starts anew. -/
def flipFilter (f : Filter) : Filter := { asserted := !f.asserted, run := 0 }

/-- The filter of a fault input replaced. -/
def setFaultFilter (i : Fin 4) (f : Filter) (s : State) : State :=
  { s with trip := { s.trip with faults := s.trip.faults.set i.val f } }

/-- A filter whose run has reached a length takes its opposite level (R132). -/
def settleFilter (ticks : Nat) (f : Filter) : Filter := if ticks ≤ f.run then flipFilter f else f

/-- The run of an input has reached the filter length (R132). -/
def filterRipe (s : State) (f : Filter) : Bool := decide (filterTicks s ≤ f.run)

/-- The filtered levels after the filter length has changed: every run that has reached the new length changes its level in
that tick (R132, R152). -/
def settleFilters (s : State) : State :=
  { s with trip := { s.trip with
      faults := s.trip.faults.map (settleFilter (filterTicks s)), tripLine := settleFilter (filterTicks s) s.trip.tripLine } }

/-- TRIP_LINE is raised on an entry into JOINED that finds the filtered trip-line level asserted (R133). It is taken with the entry,
ahead of a FAULT that waits in the same tick, though R77 and R139 give both orders of the two claims (log entry 37: DESIGN
CHOICE). -/
def raiseTripLine (s : State) : State := if s.trip.tripLine.asserted then takeOwnCause .tripLine s else s

end Sys2Proof.Machine
end

