-- ==== Sys2Proof/Machine/Station.lean ====
section
/-! DEFINITION. Station Control (05_station_states.md): withdrawal, JOIN with the cross-checks of the tables, the entries into
JOINED, and what a fault does to an acquisition. -/

namespace Sys2Proof.Machine

/-! ## Withdrawal (R88, R89) -/

/-- A CLEAR in its settle ends with a withdrawal: REFUSED_STATE, its detail open (R89; log entry 5). -/
def endClearOnWithdrawal (s : State) : State := if s.trip.settling then setResultOpen .refusedState s else s

/-- What a withdrawal leaves of its tick: the causes that wait are claims that find OFFLINE, and are discarded (R90); the state of
the first withdrawal of the tick is kept for the claims of others (R77; log entry 19). -/
def Moment.leave (s : State) : Moment :=
  { s.now with
    waiting := []
    left := if s.station = .offline then s.now.left
      else some { station := s.station, acq := s.acq, link := s.link, tables := s.tables } }

/-- The resets a withdrawal makes in every block (R89). -/
def withdrawalResets (s : State) : State :=
  { s with
    station := .offline
    acq := Acquisition.start
    link := Link.rest s.link.cycle
    roster := Roster.empty
    change := ChangeUnit.empty s.change.sequence
    carrier := Carrier.stopped
    gate := Gate.off
    setpoint := SetpointUnit.empty
    trip := { TripUnit.empty with faults := s.trip.faults, tripLine := s.trip.tripLine }
    tables := { s.tables with frozen := false }
    now := Moment.leave s }

/-- A withdrawal with a cause (R88, R89): CHANGE_CLOSED ABANDONED where the slot held a change, the resets, then LEFT_LINK. The
claimant has posted its own report before. In OFFLINE it makes the resets again (R87). -/
def withdraw (cause : WithdrawalCause) (s : State) : State :=
  let left := s.station
  postSelf (.leftLink cause left) (withdrawalResets (abandonSlot .withdrawal (endClearOnWithdrawal s)))

/-- LINK_MISMATCH posted, and the withdrawal it gives (R88). -/
def mismatchWithdraw (reason : LinkMismatchReason) (foreign : Byte) (s : State) : State :=
  withdraw .linkMismatch (postSelf (.linkMismatch reason foreign s.station) s)

/-- The state in which a claim of the same tick as a withdrawal was raised, under the tables frozen then: a table that the host
writes in OFFLINE acts from the next JOIN (R79, R152, R156). -/
def beforeLeaving (b : Leaving) (s : State) : State :=
  { s with station := b.station, acq := b.acq, link := b.link, tables := b.tables }

/-- A second withdrawal claim of one tick finds OFFLINE and is discarded, and the report of its claimant stays (R77, R90; log
entry 19). `claim` gives the report of the claim that an event makes, if it makes one, from the state before the first
withdrawal. -/
def discardedClaim (claim : State → Option ReportBody) (s : State) : State :=
  match s.now.left with
  | none => s
  | some b =>
    match claim (beforeLeaving b s) with
    | none => s
    | some body => postSelf body s

/-! ## JOIN (R78, R158) -/

/-- A configured profile fails its cross-check against the LINK table (R158, test 2). -/
def profileFails (l : LinkTable) (p : Profile) : Bool :=
  decide (periodOf l p % 2 = 1) ||
    (match p.shape with
      | .saw => decide (65535 < periodOf l p) || p.loadSetting != .valley
      | .triangle => decide (65535 < periodOf l p / 2))

/-- A configured PATTERN profile plays a PATTERN entry (R158). -/
def plays (p : Profile) (entry : Nat) : Bool :=
  p.configured && p.source == .pattern && decide (p.patternStart ≤ entry ∧ entry < p.patternStart + p.patternLength)

/-- A PATTERN entry has a compare value outside the compare range of a profile (R158, test 3). -/
def entryOutside (l : LinkTable) (p : Profile) (e : PerLeg LegSetting) : Bool :=
  decide (compareTop l p < e.a.compare.toNat ∨ compareTop l p < e.b.compare.toNat ∨ compareTop l p < e.c.compare.toNat)

/-- The numbers of the profiles a host writes. -/
def hostProfiles : List (Fin 8) := [1, 2, 3, 4, 5, 6, 7]

/-- The detail of the first failing test of JOIN's check 2, 64 times table select plus index, if any fails (R158). -/
def firstInvalid (t : Tables) (number : StationNo) : Option Nat :=
  if !t.link.valid || decide (t.link.cycleLength < 32 + 176 * countOf t.link.count) || decide (8191 < t.link.cycleLength)
      || decide (countOf t.link.count ≤ number.val) then some 0
  else
    match hostProfiles.find? (fun p => t.profiles[p].configured && profileFails t.link t.profiles[p]) with
    | some p => some (64 + p.val)
    | none =>
      ((List.range 64).find? fun e =>
        hostProfiles.any fun p =>
          plays t.profiles[p] e && entryOutside t.link t.profiles[p] (t.pattern.toList.getD e allOff)).map (192 + ·)

/-- The fault inputs. -/
def faultInputs : List (Fin 4) := [0, 1, 2, 3]

/-- A fault input is asserted after its filter, and its row gives an action (R78, R85). -/
def assertedFault (action : Action) (s : State) (i : Fin 4) : Bool :=
  s.trip.faults[i].asserted && (rowOf s.tables (.fault i)).action == action

/-- The effects of a JOIN that passes its checks (R79): LISTENING, the tables frozen, the acquisition record at its start
values, and the bit engine started: a bit time begins, LRX counts as recessive before the first tick, and no run is counted before
the first recessive sample (log entry 23: DESIGN CHOICE). -/
def enterListening (s : State) : State :=
  { s with
    station := .listening
    acq := Acquisition.start
    link := { s.link with bits := { BitEngine.rest with run := .passed } }
    tables := { s.tables with frozen := true }
    now := { s.now with arrived := false, left := none } }

/-- CAUSE_SEEN for every fault input that is asserted at the entry into LISTENING with a REPORT row (R85, R133), the lowest input
first; the order is the model's choice (log entry 14). -/
def reportFaults (s : State) : State :=
  faultInputs.foldl
    (fun s i => if assertedFault .report s i then postSelf (.causeSeen (.fault i) s.station none) s else s) s

/-- A fault input asserting during acquisition, or in the tick that has ended one with the entry into JOINED (R85, R90):
JOIN_ABORTED and a withdrawal under a TRIP row, CAUSE_SEEN under REPORT, nothing under IGNORE. -/
def acquisitionFault (i : Fin 4) (s : State) : State :=
  match (rowOf s.tables (.fault i)).action with
  | .trip => withdraw .joinAborted (postSelf (.joinAborted i) s)
  | .report => postSelf (.causeSeen (.fault i) s.station none) s
  | .ignore | .respace => s

/-! ## Entry into JOINED from LISTENING (R83, R84) -/

/-- The effects that acquisition and lone start have in common, with the number of the cycle and the cycle timer given: JOINED,
the counts and flags of R19 reset, the sequence counter 0, the view-discord flag clear, the acquisition record at its start
values; the tick keeps that the station has entered (R90). -/
def enterJoined (cycle : CycleNo) (timer : Nat) (s : State) : State :=
  { s with
    station := .joined
    acq := Acquisition.start
    link := { s.link with cycle := cycle, timer := timer, failures := 0, shorts := 0, discord := false }
    change := { s.change with sequence := 0, viewDiscord := false }
    now := { s.now with arrived := true } }

/-- Entry into JOINED at the end of acquisition, the timer restarted by the mark (R83), with the trip line judged there
(R133). -/
def acquired (taken : CycleNo) (s : State) : State :=
  let s := enterJoined (taken + 1) 12 s
  raiseTripLine (postSelf (.joinedLink (presentCount s)) s)

/-- Lone start (R84), with the trip line judged there (R133). -/
def loneJoined (s : State) : State := raiseTripLine (postSelf .linkAlone (enterJoined 0 0 s))

end Sys2Proof.Machine
end

