-- ==== Sys2Proof/Machine/Change.lean ====
section
/-! DEFINITION. The Change Unit's events (04_group_changes.md): notices, remote proposals, votes, the mark event with its
deadline, application and refresh, and the first transmission; with the delivery of losses and mismatches to the Trip Unit
(R28, R38, R41). -/

namespace Sys2Proof.Machine

/-! ## Notices (R59, R60) -/

/-- The Change Unit takes a notice about station `x`; `loss` says that it is newly lost. A PENDING automatic DROP is withdrawn
silently and built again; a PENDING or OPEN change closes when `x` is its proposer or an elector; with the slot NONE a loss
event makes the re-check (R59, R60, R70). -/
def takeNotice (x : StationNo) (why : NoticeCause) (loss : Bool) (s : State) : State :=
  let c := s.change.slot
  match c.state with
  | .vacant => if loss then recheck s else s
  | .agreed => s
  | .pending | .opened =>
    if c.state = .pending ∧ c.automatic = true then recheck (setSlot Slot.vacant s)
    else if c.remote = true ∧ c.proposer = x then closeAndRecheck .proposerLost x (.notice why) s
    else if member x c.electorate = true ∧ c.proposer ≠ x then closeAndRecheck .memberLost x (.notice why) s
    else s

/-- A loss and the notice of it reach the Trip Unit and the Change Unit. Which of the two acts first is open (R59); it is
asked only where both have something to do: a RUNNING station whose slot holds a change (log entry 4). -/
def deliverNotice (x : StationNo) (why : NoticeCause) (loss : Bool) (s : State) : State :=
  let trip (s : State) : State := if loss then raiseCause .peerLoss x none s else s
  let change := takeNotice x why loss
  if loss = true ∧ s.station = .running ∧ s.change.slot.state ≠ .vacant then
    let (tripFirst, s) := chooseFirst s
    if tripFirst then change (trip s) else trip (change s)
  else change (trip s)

/-- The Roster's judgement of the entry of `k` after an update by a frame or by a miss, with the entry before it: the lost set, a
loss, a departure, and their delivery as one notice (R34, R37, R38). -/
def judgeEntry (k : StationNo) (before : RosterEntry) (s : State) : State :=
  let group := s.tables.link.group
  let lostBefore := member k s.roster.lost
  let s := judgeLost k s
  let loss := member k s.roster.lost && !lostBefore
  let departed := standing group before && !standing group (entryOf s k)
  if loss || departed then deliverNotice k (noticeCause group (entryOf s k)) loss s else s

/-- The loss re-judgement after the view has changed by the admission of a set, and the loss event it raises: to the Trip Unit as
PEER_LOSS, with the lowest newly lost member as subject (R39, R148). -/
def rejudgeView (admitted : StationSet) (s : State) : State :=
  let before := s.roster.lost
  let s := judgeView admitted s
  match members (newlyLost before s.roster.lost) with
  | [] => s
  | lowest :: _ => raiseCause .peerLoss lowest none s

/-! ## Remote proposals (R51 to R54) -/

/-- How far a cycle is ahead of the current one, modulo 65536 (00, Cycle numbers). -/
def cyclesTo (s : State) (e : CycleNo) : Nat := (e - s.link.cycle).toNat

/-- The test MEMBER of a verdict fails for an entry: ABSENT, or PRESENT and TRIPPED, or PRESENT in another group (R54). -/
def memberUnfit (group : BitVec 2) (e : RosterEntry) : Bool :=
  e.presence == .absent || advertises e .tripped || inOtherGroup group e

/-- The verdict of an electorate member on a proposal of frame `f` (R54): the first test that holds. -/
def verdictOn (s : State) (f : Frame) (p : Proposal) : Verdict :=
  if cyclesTo s p.effective < 2 then .late
  else if f.set ≠ s.change.view ∨ f.profile ≠ s.change.profile then .basis
  else if (members p.newSet).any fun k => k != s.number && memberUnfit s.tables.link.group (entryOf s k) then .member
  else if member s.number p.newSet = true ∧ (profileAt s.tables p.newProfile).configured = false then .profile
  else if s.change.hold then .held
  else .accept

/-- The slot that adopting a proposal leaves, before the tally is judged (R53). -/
def adoptedSlot (s : State) (f : Frame) (p : Proposal) : Slot :=
  let verdict := if member s.number p.electorate then some (verdictOn s f p) else none
  { state := .opened, remote := true, automatic := false, proposer := f.sender, sequence := some p.sequence,
    newSet := p.newSet, newProfile := p.newProfile, baseSet := f.set, baseProfile := f.profile,
    electorate := p.electorate, effective := p.effective,
    accepts := if verdict = some .accept then single s.number else 0,
    verdict := verdict, firstSeen := s.link.cycle }

/-- A remote proposal is adopted: the slot filled, CHANGE_OPENED posted, and the tally judged (R53; log entry 13). -/
def adopt (f : Frame) (p : Proposal) (s : State) : State :=
  let c := adoptedSlot s f p
  let s := post (.changeOpened (cyclesTo s p.effective) p.sequence true false c.verdict) f.sender (setSlot c s)
  setSlot (judgeTally c) s

/-- A proposal part reaches the Change Unit (R51, R52). -/
def takeProposal (f : Frame) (p : Proposal) (s : State) : State :=
  let c := s.change.slot
  if 1 ≤ cyclesTo s p.effective ∧ cyclesTo s p.effective ≤ 15 then
    match c.state with
    | .vacant => adopt f p s
    | .pending =>
      if c.automatic = true ∧ c.newSet = p.newSet ∧ c.newProfile = p.newProfile then adopt f p (setSlot Slot.vacant s)
      else adopt f p (closeSlot .withdrawn f.sender .contended s)
    | .opened | .agreed => s
  else s

/-! ## Votes (R56 to R58) -/

/-- A vote names the slot's identity. -/
def namesSlot (c : Slot) (v : Vote) : Bool := c.proposer == v.proposer && c.sequence == some v.sequence

/-- A vote part reaches the Change Unit (R56, R57, R58). -/
def takeVote (f : Frame) (v : Vote) (s : State) : State :=
  let c := s.change.slot
  if c.state = .opened ∧ member f.sender c.electorate = true then
    if namesSlot c v then
      if v.verdict = .accept then
        if f.sender = c.proposer then s
        else setSlot (judgeTally { c with accepts := adjoin f.sender c.accepts }) s
      else closeAndRecheck .refused f.sender (.refusal v.verdict) s
    else if c.remote then s
    else closeAndRecheck .conflict f.sender .noReason s
  else s

/-- Stage 3 of the hand-over: the content of an own-group frame (R28, R29). A RUNNING sender's pair joins the refresh
collection; the optional part is taken while JOINED or RUNNING (R52). -/
def takeContent (f : Frame) (s : State) : State :=
  if f.group = s.tables.link.group then
    let s := if f.state = .running then
        { s with change := { s.change with collection := s.change.collection ++ [(f.set, f.profile)] } }
      else s
    if inGroup s then
      match f.part with
      | .base => s
      | .proposal p => takeProposal f p s
      | .vote v => takeVote f v s
    else s
  else s

/-- The mismatch judgement of stage 1 and its delivery to the Trip Unit in stage 2, at most once per cycle (R28, R41, R42). -/
def judgeMismatch (f : Frame) (s : State) : State :=
  match mismatchOf s f with
  | none => s
  | some kind =>
    if s.roster.mismatch then s
    else raiseCause .mismatch f.sender (some kind) { s with roster := { s.roster with mismatch := true } }

/-- The hand-over of a valid frame in JOINED, RUNNING and TRIPPED (R28): the Roster's update and PEER_PRESENT, a loss or a
departure or a mismatch (one frame never raises a loss and a mismatch, R41), then the Change Unit's part. Each stage ends before
the next begins, so the Change Unit's part waits where the cause of stage 2 does. -/
def handOver (k : StationNo) (f : Frame) (s : State) : State :=
  let judged := judgeMismatch f (judgeEntry k (entryOf s k) (hearFrame k f s))
  if judged.now.waiting = s.now.waiting then takeContent f judged else postpone (.content f) judged

/-- A frame as only a peer on the link of this station can have sent it (R14, R27). -/
def fromPeer (f : Frame) (s : State) : Bool :=
  onLink s && f.sender != s.number && decide (f.sender.val < stationCount s) && !malformed s.tables.link.count f

/-- What has waited for the other events of its tick is taken, against the state it finds (R28, R139). -/
def takePostponed (p : Postponed) (s : State) : State :=
  match p with
  | .cause r => takeCause r.cause r.subject r.kind s
  | .content f => if fromPeer f s then takeContent f s else s

/-! ## The mark event of the Change Unit (R61 to R72) -/

/-- The station state an application gives (R64). -/
def stateAfter (s : State) (newSet : StationSet) : StationState :=
  if member s.number newSet then .running else .joined

/-- Stages 1 and 2 of an application (R64): the claim, with the view, the live profile and the state in one step, and what it
does to the carrier, the setpoints and the gates (R98, R115, R127). The second value says that the immediate load raised the
STARVED cause. A retiring station stops its carrier, is forced off, clears its queue and its view-discord flag (R72, R99,
R116). -/
def applyClaim (c : Slot) (s : State) : State × Bool :=
  let was := s.station
  let s := { s with
    station := stateAfter s c.newSet
    change := { s.change with view := c.newSet, profile := c.newProfile } }
  match s.station, was with
  | .running, _ =>
    let (s, raised) := load (setpointReset (carrierStart s))
    (gateApply s, raised)
  | _, .running =>
    let s := setpointClear (carrierStop (gateOff s))
    ({ s with change := { s.change with viewDiscord := false } }, false)
  | _, _ => (setpointReset s, false)

/-- The application of an AGREED change (R64): claim, carrier and setpoint, close, loss re-judgement, re-check; and the STARVED
cause of its immediate load after the whole application (R65, R127). -/
def applyChange (s : State) : State :=
  let c := s.change.slot
  let admitted := without c.newSet s.change.view
  let (s, raised) := applyClaim c s
  raiseStarved raised (recheck (rejudgeView admitted (closeSlot .applied c.proposer .noReason s)))

/-- The deadline step (R61, R62, R63): at the mark whose number is E an AGREED change is applied, and an OPEN one closes LAPSED,
or REFUSED with the station's own reason. -/
def deadline (s : State) : State :=
  let c := s.change.slot
  if c.effective = s.link.cycle then
    match c.state with
    | .vacant | .pending => s
    | .agreed => applyChange s
    | .opened =>
      match c.verdict with
      | none | some .accept => closeAndRecheck .lapsed c.proposer .noReason s
      | some reason => closeAndRecheck .refused s.number (.refusal reason) s
  else s

/-- The pair all frames of a collection advertise, if it holds any and they agree. -/
def commonPair : List (StationSet × ProfileNo) → Option (StationSet × ProfileNo)
  | [] => none
  | pair :: rest => if rest.all (fun q => q == pair) then some pair else none

/-- A JOINED station takes a pair by refresh, and the Roster judges the new view (R71, R39). -/
def takePair (pair : StationSet × ProfileNo) (s : State) : State :=
  rejudgeView 0 { s with change := { s.change with view := pair.1, profile := pair.2, viewDiscord := false } }

/-- A discordant refresh: VIEW_DISCORD once per run (R71, R72, R74). -/
def refreshDiscord (s : State) : State :=
  if s.change.viewDiscord then s
  else
    let seen := s.change.collection.any fun pair => member s.number pair.1
    let s := postSelf (.viewDiscord s.change.collection.length seen) s
    { s with change := { s.change with viewDiscord := true } }

/-- The view refresh of a JOINED station (R71). -/
def refreshView (s : State) : State :=
  if s.change.collection.isEmpty then takePair (0, 0) s
  else
    match commonPair s.change.collection with
    | none => refreshDiscord s
    | some pair => if member s.number pair.1 then refreshDiscord s else takePair pair s

/-- The Change Unit takes the mark event (R61): the deadline, the refresh of a JOINED station whose slot was NONE when the event
arrived, the emptying of the collection. In TRIPPED only the collection is emptied. -/
def changeMark (s : State) : State :=
  let wasVacant := s.change.slot.state == .vacant
  let s := if inGroup s then deadline s else s
  let s := if s.station = .joined ∧ wasVacant = true then refreshView s else s
  { s with change := { s.change with collection := [] } }

/-! ## First transmission (R23, R50) -/

/-- The first transmission of a PENDING proposal at the own window start: the sequence taken and the counter advanced, E set,
CHANGE_OPENED posted, the tally judged (R23, R24, R50). -/
def firstTransmission (s : State) : State :=
  let c := s.change.slot
  if c.state = .pending ∧ inGroup s = true then
    let sequence := s.change.sequence
    let e := s.link.cycle + BitVec.ofNat 16 s.tables.link.lead
    let c := { c with state := .opened, sequence := some sequence, effective := e }
    let s := { s with change := { s.change with slot := c, sequence := sequence + 1 } }
    let s := postSelf (.changeOpened (cyclesTo s e) sequence false c.automatic none) s
    setSlot (judgeTally c) s
  else s

end Sys2Proof.Machine
end

