-- ==== Sys2Proof/Machine/Flags.lean ====
section
/-! DEFINITION. What the station shows: the lines it drives and senses, the gate pins, IRQn, and the read-only registers with
their flags (R1, R4, R91, R117, R161, R171). -/

namespace Sys2Proof.Machine

/-! ## Link and trip line -/

/-- LTX drives dominant: for the dominant bits of the own mark and of the own frame (R1, R7, R12), and never while RSTn is low
(R91). -/
def ltxDominant (s : State) : Bool :=
  s.pins.rstn && (s.link.mark == .driving || (s.link.bits.sending && s.link.bits.txBits.headD false))

/-- The level of the link at LRX: dominant when this station or another drives it (R1). -/
def lrxDominant (s : State) : Bool := ltxDominant s || s.pins.lineOthers

/-- The station pulls TRPn low: while TRIPPED with the drive flag set in its trip record (R140), and never while RSTn is low
(R91). -/
def trpnDriven (s : State) : Bool := s.pins.rstn && s.station == .tripped && s.trip.drive

/-- TRPn is low: this station or another pulls it (R4). -/
def trpnLow (s : State) : Bool := trpnDriven s || s.pins.tripOthers

/-! ## Gate pins (R117) -/

/-- The pin level, true for high, of a gate that is on or off, under a polarity. -/
def pinLevel (p : Polarity) (on : Bool) : Bool :=
  match p with
  | .activeHigh => on
  | .activeLow => !on

/-- The gate of a leg is on. -/
def gateOn (l : LegState) : Side → Bool
  | .upper => l.upper
  | .lower => l.lower

/-- The levels of the gate pins by the state of the gates, under the polarity in force, which is the LINK table's field
(R117). -/
def pinLevels (s : State) : PerLeg PinPair :=
  s.gate.legs.map fun l =>
    { upper := pinLevel s.tables.link.polarity l.upper, lower := pinLevel s.tables.link.polarity l.lower }

/-- The level of one pin of a pair. -/
def pinOf (p : PinPair) : Side → Bool
  | .upper => p.upper
  | .lower => p.lower

/-- Every event of the tick in progress has been taken: no command and no raised cause waits. -/
def tickOver (s : State) : Bool := s.pending.isEmpty && s.now.waiting.isEmpty

/-- The level of a gate pin, true for high: low while RSTn is low (R91). The pins are updated once per tick (R110): they show the
gates once every event of the tick has been taken, and until then what they showed after the last tick. -/
def gatePin (s : State) (leg : Leg) (side : Side) : Bool :=
  s.pins.rstn && pinOf ((if tickOver s then pinLevels s else s.now.shown).get leg) side

/-! ## IRQn (R171) -/

/-- IRQn is low: the report queue holds at least one entry, and RSTn is high. -/
def irqnLow (s : State) : Bool := s.pins.rstn && !s.host.reports.isEmpty

/-! ## Read-only registers (R161) -/

/-- STATUS, three bytes. -/
def statusBytes (s : State) : List Byte :=
  [flag s.trip.settling ++ flag (trpnLow s) ++ flag s.change.hold ++ slotCode s.change.slot.state ++ stateCode s.station,
    0#1 ++ BitVec.ofNat 3 s.setpoint.queue.length ++ flag s.trip.faults[3].asserted ++ flag s.trip.faults[2].asserted
      ++ flag s.trip.faults[1].asserted ++ flag s.trip.faults[0].asserted,
    0#3 ++ BitVec.ofNat 5 s.host.reports.length]

/-- The code of a result (R163). -/
def resultByte : ResultCode → Byte
  | .done => 0
  | .busy => 1
  | .refusedState => 2
  | .refusedRange => 3
  | .refusedFrozen => 4
  | .refusedFull => 5
  | .refusedMember => 6
  | .refusedProfile => 7
  | .refusedNoChange => 8
  | .refusedActive => 9
  | .refusedFaultActive => 10
  | .refusedInvalid => 11
  | .refusedUnknown => 12

/-- RESULT, two bytes. -/
def resultBytes (s : State) : List Byte := [resultByte s.host.result, s.host.detail]

/-- CYCLE, two bytes. -/
def cycleBytes (s : State) : List Byte := [lowByte s.link.cycle, highByte s.link.cycle]

/-- VIEW, three bytes. -/
def viewBytes (s : State) : List Byte := [lowByte s.change.view, highByte s.change.view, 0#5 ++ s.change.profile]

/-- TRIPREC, four bytes. -/
def tripRecordBytes (s : State) : List Byte :=
  [s.trip.causes.extractLsb' 0 8,
    BitVec.ofNat 4 (s.trip.first.elim 15 (fun c => (causeIndex c).val)) ++ 0#2 ++ flag s.trip.drive
      ++ flag (hasCause .host s.trip.causes),
    lowByte s.trip.entry, highByte s.trip.entry]

/-- The bytes of the oldest report entry, or eight bytes of 0 with the queue empty (R170). -/
def reportWindow (s : State) : Vector Byte 8 :=
  match s.host.reports with
  | [] => Vector.replicate 8 0
  | r :: _ => reportBytes r

/-- SDO: at high impedance, here none, while RSTn is low and while CSn is high, and otherwise the level the port drives (R160). -/
def sdo (s : State) : Option Bool := if s.pins.rstn = true ∧ s.pins.csn = false then some s.host.port.out else none

/-- The bytes of the register at an address, low byte first; none past 0x19, where reads give 0 (R160, R161). -/
def registerBytes (s : State) (address : BitVec 7) : List Byte :=
  if address = 0x00 then [0x63, 1]
  else if address = 0x01 then statusBytes s
  else if address = 0x02 then resultBytes s
  else if address = 0x03 then [s.host.lastCommand]
  else if address ≤ 0x0B then [s.host.args.toList.getD (address.toNat - 0x04) 0]
  else if address = 0x0C then [s.host.tsel]
  else if address = 0x0D then [s.host.tidx]
  else if address ≤ 0x15 then [s.host.tdata.toList.getD (address.toNat - 0x0E) 0]
  else if address = 0x16 then (reportWindow s).toList
  else if address = 0x17 then cycleBytes s
  else if address = 0x18 then viewBytes s
  else if address = 0x19 then tripRecordBytes s
  else []

end Sys2Proof.Machine
end

