-- ==== Sys2Proof/Machine/HostPort.lean ====
section
/-! DEFINITION. The host commands (11_host_port_and_reports.md) as steps of the block that owns them, table transfer, register
writes and the read of REPORT. -/

namespace Sys2Proof.Machine

/-- A command is taken: its code becomes the last command (R162), and it is carried out. -/
def issue (code : Byte) (f : State → State) (s : State) : State :=
  f { s with host := { s.host with lastCommand := code } }

/-- A command refused for the station state, with the state as detail (R163). -/
def refuseState (s : State) : State := setResult .refusedState (stateDetail s.station) s

/-! ## JOIN, LEAVE, RESTART (R78, R86, R87) -/

/-- JOIN: its three checks in order, then the entry into LISTENING (R78, R79). -/
def joinStep (s : State) : State :=
  if s.station ≠ .offline then refuseState s
  else
    match firstInvalid s.tables s.number with
    | some detail => setResult .refusedInvalid (natByte detail) s
    | none =>
      match faultInputs.find? (assertedFault .trip s) with
      | some i => setResult .refusedFaultActive (natByte i.val) s
      | none => setResultOpen .done (reportFaults (enterListening s))

/-- A JOINED station holds a change whose electorate contains it (R86). -/
def heldByElectorate (s : State) : Bool :=
  s.change.slot.state != .vacant && member s.number s.change.slot.electorate

/-- LEAVE (R86); the details are open (log entry 5). -/
def leaveStep (s : State) : State :=
  match s.station with
  | .offline | .running => setResultOpen .refusedState s
  | .listening | .tripped => setResultOpen .done (withdraw .leave s)
  | .joined => if heldByElectorate s then setResultOpen .busy s else setResultOpen .done (withdraw .leave s)

/-- RESTART (R87); the detail is open (log entry 5). -/
def restartStep (s : State) : State := setResultOpen .done (withdraw .restart s)

/-! ## PROPOSE (R48, R49) -/

/-- The set and the profile of a PROPOSE do not fit (R48, check 3). -/
def profileUnfit (t : Tables) (newSet : StationSet) (p : Byte) : Bool :=
  (newSet != 0 && p == 0) || (newSet == 0 && p != 0) || decide (7#8 < p)
    || (p != 0 && !(profileAt t (p.setWidth 3)).configured)

/-- The lowest member of a set, other than the station itself, that is not in standing (R48, check 4). -/
def memberNotStanding (s : State) (newSet : StationSet) : Option StationNo :=
  (members newSet).find? fun k => k != s.number && !inStanding s k

/-- PROPOSE: its five checks in order, then the proposal in the slot (R48, R49). -/
def proposeStep (s : State) : State :=
  let newSet := proposeSet s.host.args
  let p := proposeProfile s.host.args
  if inGroup s = false then refuseState s
  else if s.change.slot.state ≠ .vacant then
    setResult .busy ((slotCode s.change.slot.state).setWidth 8) s
  else if profileUnfit s.tables newSet p then setResult .refusedProfile p s
  else
    match memberNotStanding s newSet with
    | some k => setResult .refusedMember (natByte k.val) s
    | none =>
      if newSet = s.change.view ∧ p.setWidth 3 = s.change.profile then setResult .refusedNoChange 0 s
      else
        setResult .done 0
          (setSlot (localProposal s false newSet (p.setWidth 3) (electorateOf s (s.change.view ||| newSet))) s)

/-! ## HOLD, RELEASE, RECALL (R165) -/

/-- HOLD or RELEASE: the hold flag takes a value, and its value before is the detail; refused in OFFLINE. -/
def holdStep (value : Bool) (s : State) : State :=
  if s.station = .offline then setResult .refusedState 0 s
  else
    let before := s.change.hold
    setResult .done (0#7 ++ flag before) { s with change := { s.change with hold := value } }

/-- RECALL: ARG0 takes the RESULT code, ARG1 the detail, ARG2 the last command (R165). -/
def recallStep (s : State) : State :=
  { s with host := { s.host with
      args := ((s.host.args.set 0 (resultByte s.host.result)).set 1 s.host.detail).set 2 s.host.lastCommand } }

/-! ## CLEAR and STOP (R142 to R146) -/

/-- A fault cause of the cause set is still asserted after its filter (R143). -/
def faultStands (s : State) (i : Fin 4) : Bool := hasCause (.fault i) s.trip.causes && s.trip.faults[i].asserted

/-- The release of a CLEAR that has passed its fault check (R144): the drive flag cleared, the settle begun, RESULT BUSY. -/
def clearRelease (s : State) : State :=
  setResult .busy 0 { s with trip := { s.trip with drive := false, settling := true, settled := 0 } }

/-- CLEAR (R143): refused outside TRIPPED and while a recorded fault stands; otherwise its release. -/
def clearStep (s : State) : State :=
  if s.station ≠ .tripped then refuseState s
  else
    match faultInputs.find? (faultStands s) with
    | some i => setResult .refusedActive (natByte i.val) s
    | none => clearRelease s

/-- A successful CLEAR (R146): JOINED, the trip record cleared, the filtered trip-line level deasserted with its run anew, the
view-discord flag cleared, TRIP_CLEARED posted. -/
def clearSucceeds (s : State) : State :=
  let s := postSelf (.tripCleared s.trip.first s.trip.causes (s.link.cycle - s.trip.entry).toNat) s
  { s with
    station := .joined
    trip := { s.trip with
      first := none, causes := 0, entry := 0, drive := false, tripLine := Filter.quiet, settling := false, settled := 0 }
    change := { s.change with viewDiscord := false } }

/-- The sample at the end of a settle (R144). -/
def clearSampleStep (low : Bool) (s : State) : State :=
  if s.station = .tripped ∧ s.trip.settling = true then
    let s := { s with trip := { s.trip with settling := false, settled := 0 } }
    if low = true ∧ (rowOf s.tables .tripLine).action = .trip then
      setResult .refusedActive 4 (addCause .tripLine s.number none s)
    else setResultOpen .done (clearSucceeds s)
  else s

/-- STOP (R142): a trip claim with the HOST cause from JOINED or RUNNING, an addition in TRIPPED. -/
def stopStep (s : State) : State :=
  match s.station with
  | .offline | .listening => refuseState s
  | .joined | .running => setResult .done 0 (tripEntry .host (rowOf s.tables .host).drive s.number none s)
  | .tripped =>
    if hasCause .host s.trip.causes then setResult .done 2 s
    else setResult .done 1 (addCause .host s.number none s)

/-! ## PUSH and FLUSH (R120, R121) -/

/-- The tag names no configured profile (R120, check 2). -/
def tagUnfit (t : Tables) (tag : BitVec 4) : Bool :=
  tag == 0 || decide (7#4 < tag) || !(profileAt t (tag.setWidth 3)).configured

/-- PUSH: its four checks in order, then the record at the tail (R120). -/
def pushStep (s : State) : State :=
  let tag := pushTag s.host.args
  if inGroup s = false then refuseState s
  else if tagUnfit s.tables tag then setResult .refusedProfile (tag.setWidth 8) s
  else
    match legSettings (compareTop s.tables.link (profileAt s.tables (tag.setWidth 3))) (legFields s.host.args) with
    | .error leg => setResult .refusedRange (natByte leg.val) s
    | .ok legs =>
      if 4 ≤ s.setpoint.queue.length then setResult .refusedFull 4 s
      else
        let queue := s.setpoint.queue ++ [{ tag := tag.setWidth 3, legs := legs }]
        setResult .done (natByte queue.length) { s with setpoint := { s.setpoint with queue := queue } }

/-- FLUSH (R121). -/
def flushStep (s : State) : State :=
  setResult .done (natByte s.setpoint.queue.length) { s with setpoint := { s.setpoint with queue := [] } }

/-! ## Table transfer (R167, R168) -/

/-- The staging registers take an entry. -/
def stage (bytes : Vector Byte 8) (s : State) : State :=
  setResult .done 0 { s with host := { s.host with tdata := bytes } }

/-- A table index that a TREAD does not find (R167). -/
def refuseIndex (s : State) : State := setResult .refusedRange 255 s

/-- TREAD of entry `index` of table `select` (R44, R75, R154, R167). -/
def treadStep (s : State) : State :=
  let index := s.host.tidx.toNat
  match s.host.tsel.toNat with
  | 0 => if index = 0 then stage (linkBytes s.tables.link s.number) s else refuseIndex s
  | 1 => if h : index < 8 then stage (profileBytes s.tables.profiles[index]) s else refuseIndex s
  | 2 => if h : index < 9 then stage (causeBytes s.tables.causes[index]) s else refuseIndex s
  | 3 => if h : index < 64 then stage (legBytes s.tables.pattern[index]) s else refuseIndex s
  | 4 => if h : index < 16 then stage (rosterBytes (rosterView s ⟨index, h⟩)) s else refuseIndex s
  | 5 =>
    if index = 0 then
      stage (slotLowBytes s.change.slot) { s with host := { s.host with args := slotHighBytes s.change.slot } }
    else refuseIndex s
  | _ => setResult .refusedRange 254 s

/-- Checks 3 to 5 of a TWRITE (R168), from its first failing field or the tables to store, with what the write does at once
(R152). -/
def writeEntry (s : State) (written : Except Nat Tables) (after : State → State) : State :=
  if s.tables.frozen then setResult .refusedFrozen 0 s
  else
    match written with
    | .error field => setResult .refusedRange (natByte field) s
    | .ok t => setResult .done 0 (after { s with tables := t })

/-- TWRITE of the staging registers into entry `index` of table `select` (R168). A LINK write that passes sets the valid flag and
changes the fault filter for the runs in progress (R151, R152). -/
def twriteStep (s : State) : State :=
  let index := s.host.tidx.toNat
  let t := s.tables
  match s.host.tsel.toNat with
  | 0 =>
    if index = 0 then
      writeEntry s ((linkOf s.host.tdata).map fun l => { t with link := l }) settleFilters
    else refuseIndex s
  | 1 =>
    if h : 1 ≤ index ∧ index < 8 then
      writeEntry s ((profileOf s.host.tdata).map fun p => { t with profiles := t.profiles.set index p h.2 }) id
    else refuseIndex s
  | 2 =>
    if h : index < 9 then
      writeEntry s ((causeOf ⟨index, h⟩ s.host.tdata).map fun r => { t with causes := t.causes.set index r h }) id
    else refuseIndex s
  | 3 =>
    if h : index < 64 then
      writeEntry s ((patternOf s.host.tdata).map fun e => { t with pattern := t.pattern.set index e h }) id
    else refuseIndex s
  | _ => setResult .refusedRange 254 s

/-! ## Register writes, REPORT (R161, R170) -/

/-- A write of one byte to a register other than COMMAND (R161): the writable registers hold it, and every other address
discards it. -/
def writeRegister (address : BitVec 7) (value : Byte) (s : State) : State :=
  if 0x04 ≤ address ∧ address ≤ 0x0B then
    { s with host := { s.host with args := s.host.args.setIfInBounds (address.toNat - 0x04) value } }
  else if address = 0x0C then { s with host := { s.host with tsel := value } }
  else if address = 0x0D then { s with host := { s.host with tidx := value } }
  else if 0x0E ≤ address ∧ address ≤ 0x15 then
    { s with host := { s.host with tdata := s.host.tdata.setIfInBounds (address.toNat - 0x0E) value } }
  else s

/-- A complete read of REPORT (R170). The latch takes the entry that was latched when its byte 0 began to shift out, which is then
removed from the queue; a read begun on an empty queue gives eight bytes of 0 and removes nothing, whatever has been posted
since. A read that no transfer of the port has begun takes and removes the oldest entry at one moment. -/
def readReport (s : State) : State :=
  match s.host.port.entry with
  | none => { s with host := { s.host with latch := reportWindow s, reports := s.host.reports.tail } }
  | some (bytes, stored) =>
    { s with host := { s.host with
        latch := bytes
        reports := if stored then s.host.reports.tail else s.host.reports
        port := { s.host.port with entry := none } } }

/-- The step of a command code, RECALL's last command excepted (R162, R165). -/
def commandStep (code : Byte) (s : State) : State :=
  if code = 0x00 then issue code (setResult .done 0) s
  else if code = 0x01 then issue code joinStep s
  else if code = 0x02 then issue code leaveStep s
  else if code = 0x03 then issue code restartStep s
  else if code = 0x04 then issue code proposeStep s
  else if code = 0x05 then issue code (holdStep true) s
  else if code = 0x06 then issue code (holdStep false) s
  else if code = 0x07 then issue code clearStep s
  else if code = 0x08 then issue code stopStep s
  else if code = 0x09 then issue code pushStep s
  else if code = 0x0A then issue code flushStep s
  else if code = 0x0B then issue code treadStep s
  else if code = 0x0C then issue code twriteStep s
  else if code = 0x0D then recallStep s
  else issue code (setResult .refusedUnknown code) s

end Sys2Proof.Machine
end

