-- ==== Sys2Proof/Machine/HostCommands.lean ====
section
/-! DEFINITION. The meanings of the commands of the host port and of the power-on rows: POWER_ON, RSTN_LOW, the host commands,
UNKNOWN_COMMAND, REGISTER_WRITE and REPORT_READ. -/

namespace Sys2Proof.Machine

/-- POWER_ON (R91, R153, R173): RSTn rises, the station number is sampled from ID0 to ID3, and every block takes its power-on
state. -/
def execPowerOn (ids : IdPins) (s : State) : Out :=
  let pins := { s.pins with rstn := true, ids := ids }
  .next (State.powerOn (idNumber pins.ids) pins s.free s.pending)

/-- RSTN_LOW (R91): RSTn is low; the gate pins, LTX, TRPn and IRQn follow from it (`gatePin`, `ltxDominant`, `trpnDriven`,
`irqnLow`), and no command but POWER_ON has an effect (log entry 9). -/
def execRstnLow (s : State) : Out := .next { s with pins := { s.pins with rstn := false } }

/-- NOP (R165). -/
def execNop (s : State) : Out := whilePowered s (issue 0x00 (setResult .done 0))

/-- JOIN (R78, R79). -/
def execJoin (s : State) : Out := whilePowered s (issue 0x01 joinStep)

/-- LEAVE (R86). -/
def execLeave (s : State) : Out := whilePowered s (issue 0x02 leaveStep)

/-- RESTART (R87). -/
def execRestart (s : State) : Out := whilePowered s (issue 0x03 restartStep)

/-- PROPOSE (R48, R49, R164). -/
def execPropose (s : State) : Out := whilePowered s (issue 0x04 proposeStep)

/-- HOLD (R73, R165). -/
def execHold (s : State) : Out := whilePowered s (issue 0x05 (holdStep true))

/-- RELEASE (R73, R165). -/
def execRelease (s : State) : Out := whilePowered s (issue 0x06 (holdStep false))

/-- CLEAR (R143, R144). -/
def execClear (s : State) : Out := whilePowered s (issue 0x07 clearStep)

/-- STOP (R142). -/
def execStop (s : State) : Out := whilePowered s (issue 0x08 stopStep)

/-- PUSH (R120, R164). -/
def execPush (s : State) : Out := whilePowered s (issue 0x09 pushStep)

/-- FLUSH (R121). -/
def execFlush (s : State) : Out := whilePowered s (issue 0x0A flushStep)

/-- TREAD (R167). -/
def execTread (s : State) : Out := whilePowered s (issue 0x0B treadStep)

/-- TWRITE (R168). -/
def execTwrite (s : State) : Out := whilePowered s (issue 0x0C twriteStep)

/-- RECALL (R165): it replaces neither RESULT nor the last command. -/
def execRecall (s : State) : Out := whilePowered s recallStep

/-- UNKNOWN_COMMAND (R162): a code from 0x0E is refused with the code as detail. A lower code is another command's, and the term
is no command (log entry 26). -/
def execUnknownCommand (code : Byte) (s : State) : Out :=
  if code < 0x0E then .fault (.notACommand code)
  else whilePowered s (issue code (setResult .refusedUnknown code))

/-- REGISTER_WRITE (R161): the byte is stored or discarded; at COMMAND it issues the command with that code (R162). -/
def execRegisterWrite (address : BitVec 7) (value : Byte) (s : State) : Out :=
  whilePowered s (if address = 0x03 then commandStep value else writeRegister address value)

/-- REPORT_READ (R170). -/
def execReportRead (s : State) : Out := whilePowered s readReport

end Sys2Proof.Machine
end

