-- ==== Sys2Proof/Machine/Mark.lean ====
section
/-! DEFINITION. Marks (01_the_link_cycle.md, 05_station_states.md): where a run is a mark, the four stages of an accepted mark on
the link, and what a mark does to an acquisition. -/

namespace Sys2Proof.Machine

/-! ## Where a run is a mark (R8) -/

/-- What a run of twelve bit times is, from the station state and the timer value at which it began (R8). -/
inductive RunKind where
  | mark | disturbance | ignored
  deriving DecidableEq, Repr

/-- The table of R8. -/
def runKind (s : State) (start : Nat) : RunKind :=
  match s.station with
  | .offline => .ignored
  | .listening => .mark
  | .joined | .running | .tripped =>
    if tailStart s ≤ start then .mark else if 16 ≤ start then .disturbance else .ignored

/-! ## The bookkeeping every accepted mark makes -/

/-- The cycle timer takes the value 12 (R6), the mark state DEFERRED returns to NONE (R7), and the window bookkeeping of the
cycle that has ended is closed, any frame partly assembled discarded (R35). -/
def markRestart (s : State) : State :=
  { s with link := { s.link with
      timer := 12
      mark := if s.link.mark = .deferred then .quiet else s.link.mark
      rx := .waiting
      rxBuffer := []
      bits := { s.link.bits with rx := .hunt } } }

/-! ## Cycle numbers (R18) -/

/-- The cases of the cycle-number agreement: the tally is empty or agrees with the own number, it holds one other number, or its
values differ among themselves (R18). -/
inductive Agreement where
  | agrees
  | slips (adopted : CycleNo)
  | differs
  deriving DecidableEq, Repr

/-- The judgement of a tally against the own number (R18). -/
def agreement (own : CycleNo) (tally : List CycleNo) : Agreement :=
  match tally with
  | [] => .agrees
  | v :: rest => if rest.all (fun w => w == v) then (if v = own then .agrees else .slips v) else .differs

/-- The distinct values of a tally. -/
def distinctValues : List CycleNo → List CycleNo
  | [] => []
  | v :: rest => if rest.contains v then distinctValues rest else v :: distinctValues rest

/-- The new cycle gets a number, and the tally is emptied. -/
def numberCycle (n : CycleNo) (s : State) : State := { s with link := { s.link with cycle := n, tally := [] } }

/-- Stage 3 of a mark (R10, R18): the number of the new cycle; a slip posts CYCLE_SLIP and closes a change SLIPPED with its
re-check (R61, R70); differing values post CYCLE_DISCORD once and set the discord flag, which the other two cases clear. -/
def agreeNumber (s : State) : State :=
  let own := s.link.cycle
  let tally := s.link.tally
  match agreement own tally with
  | .agrees =>
    let s := numberCycle (own + 1) s
    { s with link := { s.link with discord := false } }
  | .slips v =>
    let held := s.change.slot.state != .vacant
    let s := numberCycle (v + 1) s
    let s := postSelf (.cycleSlip own held) { s with link := { s.link with discord := false } }
    if held then closeAndRecheck .slipped s.change.slot.proposer .noReason s else s
  | .differs =>
    let s := numberCycle (own + 1) s
    if s.link.discord then s
    else
      let s := postSelf (.cycleDiscord tally.length (distinctValues tally).length) s
      { s with link := { s.link with discord := true } }

/-! ## The mark event (R10, stage 4) -/

/-- The Change Unit has something to do at this mark that a trip would forestall: the slot's effective cycle begins (R62, R65). -/
def deadlineFalls (s : State) : Bool :=
  inGroup s && s.change.slot.effective == s.link.cycle
    && (s.change.slot.state == .agreed || s.change.slot.state == .opened)

/-- At this mark an AGREED change retires the station (R64). -/
def retiring (s : State) : Bool :=
  deadlineFalls s && s.change.slot.state == .agreed && !member s.number s.change.slot.newSet

/-- The Change Unit's mark event after a re-phase whose load may have raised the STARVED cause. Where the effective cycle begins,
the trip claim may be taken before the application or after it (R65; log entry 31); at a station that retires it is taken
first (R128). -/
def changeAfterLoad (raised : Bool) (s : State) : State :=
  if raised = true ∧ deadlineFalls s = true then
    if retiring s then changeMark (takeOwnCause .starved s)
    else
      let (tripFirst, s) := chooseFirst s
      if tripFirst then changeMark (takeOwnCause .starved s) else raiseStarved true (changeMark s)
  else changeMark (raiseStarved raised s)

/-- The mark event: the Roster clears its mismatch flag (R35), the Carrier Unit re-phases, and the Change Unit takes it. Which of
the last two is first is open (R102); it is asked only where the carrier runs (log entry 3). Both are parts of one step, so no PUSH
or FLUSH of the tick comes between the load of the old profile and the application (R122, R128; log entry 40: DEDUCED). -/
def markEvent (s : State) : State :=
  let s := { s with roster := { s.roster with mismatch := false } }
  if s.carrier.running then
    let (carrierFirst, s) := chooseFirst s
    if carrierFirst then
      let (s, raised) := markRephase s
      changeAfterLoad raised s
    else
      let (s, raised) := markRephase (changeMark s)
      raiseStarved raised s
  else changeMark s

/-- The short-interval count after an interval (R11). -/
def shortsAfter (s : State) (interval : Nat) : Nat := if interval < shortLimit s then s.link.shorts + 1 else 0

/-- A mark accepted in JOINED, RUNNING or TRIPPED, in its four stages (R10): interval watch, timer, cycle number, mark event. A
third short interval withdraws the station, and the other stages do not take place (R11). The set-this-tick mark of an earlier
application is over (R93). -/
def linkMark (interval : Nat) (s : State) : State :=
  let shorts := shortsAfter s interval
  let s := { s with
    carrier := { s.carrier with setThisTick := false }
    link := { s.link with shorts := shorts } }
  if 3 ≤ shorts then mismatchWithdraw .shortInterval 0 s else markEvent (agreeNumber (markRestart s))

/-! ## Acquisition (R81, R82) -/

/-- A mark interval lies in the lock range, L - floor(L/64) to L + 2 (R81). -/
def inLockRange (s : State) (interval : Nat) : Bool :=
  decide (shortLimit s ≤ interval ∧ interval ≤ cycleLength s + 2)

/-- A failed lock attempt (R81): the third withdraws; otherwise this mark is the first mark of a new attempt, with no listening
cycle and no taken number. -/
def failedLock (s : State) : State :=
  let failed := s.acq.failedLocks + 1
  if 3 ≤ failed then
    mismatchWithdraw .lockFailed 0 { s with acq := { s.acq with failedLocks := failed } }
  else { s with acq := { s.acq with phase := .locking, failedLocks := failed, listening := 0, taken := none } }

/-- A mark within the lock range that ends a listening cycle (R82). -/
def listenMark (s : State) : State :=
  if s.acq.listening ≤ 1 then { s with acq := { s.acq with listening := 2 } }
  else
    match s.acq.taken with
    | some v => acquired v s
    | none =>
      if s.acq.listening < 4 then { s with acq := { s.acq with listening := s.acq.listening + 1 } }
      else mismatchWithdraw .noNumber 0 s

/-- A mark accepted in LISTENING (R10, R81). -/
def acquisitionMark (interval : Nat) (s : State) : State :=
  let s := markRestart s
  let s := { s with roster := { s.roster with mismatch := false } }
  match s.acq.phase with
  | .seek => { s with acq := { s.acq with phase := .locking } }
  | .locking =>
    if inLockRange s interval then { s with acq := { s.acq with phase := .listen, listening := 1 } } else failedLock s
  | .listen => if inLockRange s interval then listenMark s else failedLock s

/-! ## Claims of the same tick as a withdrawal (R77, R90) -/

/-- The reason of the LINK_MISMATCH that a mark brings to an acquisition, if it brings one (R81, R82). -/
def acquisitionReason (interval : Nat) (s : State) : Option LinkMismatchReason :=
  if s.acq.phase = .seek then none
  else if inLockRange s interval then
    if s.acq.phase = .listen ∧ s.acq.taken = none ∧ 4 ≤ s.acq.listening then some .noNumber else none
  else if 3 ≤ s.acq.failedLocks + 1 then some .lockFailed
  else none

/-- The withdrawal claim that a dominant run of twelve bit times makes, as the report of its claimant in OFFLINE (R11, R81, R82,
R88). -/
def markClaim (start : Nat) (s : State) : Option ReportBody :=
  match runKind s start with
  | .mark =>
    let reason := if onLink s then (if 3 ≤ shortsAfter s start then some .shortInterval else none)
      else acquisitionReason start s
    reason.map fun r => .linkMismatch r 0 .offline
  | .disturbance | .ignored => none

end Sys2Proof.Machine
end

