-- ==== Sys2Proof/Machine/Window.lean ====
section
/-! DEFINITION. Windows and frames (01_the_link_cycle.md, 02_window_frames.md): the own frame and its readback, reception, and
the end of a window. -/

namespace Sys2Proof.Machine

/-! ## The own window (R12, R13, R22 to R26) -/

/-- The state code the own frame carries (R22). -/
def ownAdvState (s : State) : AdvState :=
  match s.station with
  | .running => .running
  | .tripped => .tripped
  | .offline | .listening | .joined => .joined

/-- The optional part of the own frame, from the slot after a first transmission has been made (R23, R25). -/
def ownPart (s : State) : FramePart :=
  let c := s.change.slot
  if inGroup s = true ∧ (c.state = .opened ∨ c.state = .agreed) then
    if c.remote then
      match c.verdict with
      | none => .base
      | some verdict =>
        if member s.number c.electorate then
          .vote { proposer := c.proposer, sequence := c.sequence.getD 0, verdict := verdict }
        else .base
    else
      .proposal { sequence := c.sequence.getD 0, newProfile := c.newProfile, newSet := c.newSet,
                  electorate := c.electorate, effective := c.effective }
  else .base

/-- The own frame (R22): every field from the state at the window start. -/
def ownFrame (s : State) : Frame :=
  { sender := s.number, state := ownAdvState s, linkCode := s.tables.link.linkCode, cycle := s.link.cycle,
    group := s.tables.link.group, profile := s.change.profile,
    tripClass := if s.station = .tripped then tripClassOf s.trip.first else 0,
    set := s.change.view, part := ownPart s }

/-- The bits of a byte on the link, true for dominant: start bit, data bits with the least significant first, stop bit (R1,
R3). -/
def byteBits (b : Byte) : List Bool :=
  [true, !b.getLsbD 0, !b.getLsbD 1, !b.getLsbD 2, !b.getLsbD 3, !b.getLsbD 4, !b.getLsbD 5, !b.getLsbD 6, !b.getLsbD 7, false]

/-- The own frame is built into the transmit buffer, and its content is then fixed (R12); the readback of the window begins. -/
def buildFrame (s : State) : State :=
  let bytes := encodeFrame (ownFrame s)
  { s with link := { s.link with
      timer := windowStart s.number
      txBuffer := bytes
      readbackBad := false
      bits := { s.link.bits with txBits := bytes.flatMap byteBits, sending := false } } }

/-- The start of the own window (R12): a first transmission where a proposal is PENDING (R50), then the frame. -/
def ownWindow (s : State) : State := buildFrame (firstTransmission s)

/-- The first mismatch of the readback: sending stops, LTX is released for the rest of the window, and the readback is recorded
as failed (R13). -/
def stopSending (s : State) : State :=
  { s with link := { s.link with readbackBad := true, bits := { s.link.bits with txBits := [], sending := false } } }

/-- A receive error of the read-back frame is recorded like a mismatch (R13). -/
def failReadback (s : State) : State := { s with link := { s.link with readbackBad := true } }

/-- The readback result at the end of the own window (R13): GOOD sets the failure count to 0, FAILED increases it, and at the
miss limit the station posts WINDOW_CONFLICT and withdraws. Nothing is judged where no frame was sent. -/
def judgeReadback (s : State) : State :=
  if s.link.txBuffer.isEmpty then s
  else if s.link.readbackBad then
    let failures := s.link.failures + 1
    let s := { s with link := { s.link with
        readback := .failed, failures := failures, txBuffer := [], readbackBad := false
        bits := { s.link.bits with txBits := [], sending := false } } }
    if s.tables.link.missLimit ≤ failures then
      withdraw .windowConflict (postSelf (.windowConflict failures s.station) s)
    else s
  else
    { s with link := { s.link with
        readback := .good, failures := 0, txBuffer := []
        bits := { s.link.bits with txBits := [], sending := false } } }

/-! ## Reception (R14 to R16, R28, R30) -/

/-- The own frame read back in the own window (R13): it fails when a byte differs from the byte sent or a check fails. -/
def readBack (bytes : List Byte) (s : State) : State :=
  match checkFrame s.tables.link s.number bytes with
  | .valid _ => if bytes = s.link.txBuffer then s else failReadback s
  | .foreignCode _ | .invalid => failReadback s

/-- The frame of the window in progress has come to its end: what follows in the window is ignored (R14). -/
def closeReception (status : RxStatus) (s : State) : State := { s with link := { s.link with rx := status } }

/-- The cycle number of a valid frame joins the tally (R14, R18). -/
def tallyFrame (f : Frame) (s : State) : State := { s with link := { s.link with tally := s.link.tally ++ [f.cycle] } }

/-- The cycle number of a valid frame heard in listening cycle 2 or later, with none taken yet, becomes the taken number and the
station's cycle number (R82). -/
def takeNumber (f : Frame) (s : State) : State :=
  if 2 ≤ s.acq.listening ∧ s.acq.taken = none then
    { s with acq := { s.acq with taken := some f.cycle }, link := { s.link with cycle := f.cycle } }
  else s

/-- A frame that completes in a window on the link (R14, R28). -/
def linkFrame (k : StationNo) (bytes : List Byte) (s : State) : State :=
  if k = s.number then closeReception .spoiled (readBack bytes s)
  else
    match checkFrame s.tables.link k bytes with
    | .valid f => handOver k f (tallyFrame f (closeReception .handedOver s))
    | .foreignCode _ | .invalid => closeReception .spoiled s

/-- A frame that completes in a window while LISTENING with lock (R16, R30, R85). -/
def listenFrame (k : StationNo) (bytes : List Byte) (s : State) : State :=
  match checkFrame s.tables.link k bytes with
  | .invalid => closeReception .spoiled s
  | .foreignCode code => mismatchWithdraw .foreignCode code s
  | .valid f =>
    if k = s.number then withdraw .numberTaken (postSelf .numberTaken s)
    else takeNumber f (hearFrame k f (closeReception .handedOver s))

/-- The window that a timer value lies in, if any (R5). -/
def windowAt (s : State) (t : Nat) : Option StationNo :=
  if 16 ≤ t ∧ t < tailStart s then some (Fin.ofNat 16 ((t - 16) / 176)) else none

/-- A window number that the station times at present: below S, and on the link or in LISTENING with lock (R5, R14, R16). -/
def timed (k : StationNo) (s : State) : Bool := receiving s && decide (k.val < stationCount s)

/-- A frame completes in window `k`. What follows a frame that is complete or invalid in the same window is ignored (R14). -/
def completeFrame (k : StationNo) (bytes : List Byte) (s : State) : State :=
  if timed k s = true ∧ s.link.rx = .waiting then
    if onLink s then linkFrame k bytes s else listenFrame k bytes s
  else s

/-- Window `k` is the window in progress. -/
def inWindow (k : StationNo) (s : State) : Bool := timed k s && windowAt s s.link.timer == some k

/-- An error makes the frame of window `k` invalid while that window is in progress, unless its frame is already complete (R8,
R15); in the own window on the link it is recorded like a mismatch (R13). Once the window has ended there is nothing left of its
frame to spoil. -/
def spoilWindow (k : StationNo) (s : State) : State :=
  if inWindow k s = true ∧ s.link.rx = .waiting then
    let s := closeReception .spoiled s
    if onLink s = true ∧ k = s.number then failReadback s else s
  else s

/-! ## The end of a window (R13, R14, R34) -/

/-- A miss for window `k` is taken by the Roster (R34): the entry is aged, and on the link it is then judged; in LISTENING it is
not (R30, R37). -/
def takeMiss (k : StationNo) (s : State) : State :=
  let before := entryOf s k
  let s' := missFrame k s
  if onLink s && isPresent before && !isPresent (entryOf s' k) then judgeEntry k before s' else s'

/-- The window bookkeeping at its end: the timer stands at the start of the next window or of the tail, and reception begins
anew (R5, R14). -/
def closeWindow (k : StationNo) (s : State) : State :=
  { s with link := { s.link with
      timer := windowStart k + 176, rx := .waiting, rxBuffer := [], bits := { s.link.bits with rx := .hunt } } }

/-- A read-back frame that has not come to its end with its window has overrun it (R15), which is recorded like a mismatch
(R13). -/
def overrunReadback (s : State) : State := if s.link.rx = .waiting then failReadback s else s

/-- Window `k` ends: the readback is judged in the own window on the link, and a miss is signalled for another window in which
no valid frame was handed over (R13, R14, R16). -/
def endWindow (k : StationNo) (s : State) : State :=
  if timed k s then
    let missed := s.link.rx != .handedOver
    let s := closeWindow k (if k = s.number ∧ onLink s = true then overrunReadback s else s)
    if k = s.number then (if onLink s then judgeReadback s else s)
    else if missed then takeMiss k s
    else s
  else s

/-! ## Claims of the same tick as a withdrawal (R77, R90) -/

/-- The withdrawal claim that a complete frame makes, as the report of its claimant in OFFLINE (R85, R88). -/
def frameClaim (k : StationNo) (bytes : List Byte) (s : State) : Option ReportBody :=
  if timed k s = true ∧ s.link.rx = .waiting ∧ onLink s = false then
    match checkFrame s.tables.link k bytes with
    | .invalid => none
    | .foreignCode code => some (.linkMismatch .foreignCode code .offline)
    | .valid _ => if k = s.number then some .numberTaken else none
  else none

/-- The withdrawal claim that the end of a window makes, as the report of its claimant in OFFLINE (R13, R88). -/
def windowClaim (k : StationNo) (s : State) : Option ReportBody :=
  if timed k s = true ∧ k = s.number ∧ onLink s = true ∧ s.link.txBuffer ≠ []
      ∧ (s.link.readbackBad = true ∨ s.link.rx = .waiting) ∧ s.tables.link.missLimit ≤ s.link.failures + 1 then
    some (.windowConflict (s.link.failures + 1) .offline)
  else none

end Sys2Proof.Machine
end

