-- ==== Sys2Proof/Machine/LinkCommands.lean ====
section
/-! DEFINITION. The meanings of the link's events: marks (R6, R7, R8, R10, R84), windows and frames (R12 to R16, R28). An event
that the rules do not let happen in the state it finds has no effect (log entry 8). -/

namespace Sys2Proof.Machine

/-- The station begins to drive its mark (R7). At the start of a bit time the drive makes no transition inside it; after the sample
of a bit time it does, and the mark's first bit time starts there (R1). -/
def beginMark (s : State) : State :=
  { s with link := { s.link with
      mark := .driving
      bits := { s.link.bits with driven := 0, level := s.link.bits.level || !s.link.bits.sampled } } }

/-- TIMER_REACHES_L in mark state NONE on the link (R7). The timer stands at L, or past it where the bit time in which it has reached L
has already been counted (R1, R6). -/
def timerStep (dominant : Bool) (s : State) : State :=
  if onLink s = true ∧ s.link.mark = .quiet then
    let s := { s with link := { s.link with timer := max s.link.timer (cycleLength s) } }
    if dominant then { s with link := { s.link with mark := .deferred } } else beginMark s
  else s

/-- TIMER_REACHES_L (R7). -/
def execTimerReachesL (dominant : Bool) (s : State) : Out := whilePowered s (timerStep dominant)

/-- DEFERRED_MARK_START (R7). -/
def deferredStep (s : State) : State := if onLink s = true ∧ s.link.mark = .deferred then beginMark s else s

/-- DEFERRED_MARK_START (R7). -/
def execDeferredMarkStart (s : State) : Out := whilePowered s deferredStep

/-- The level of the line at this tick is remembered. -/
def noteLevel (s : State) : State :=
  { s with link := { s.link with bits := { s.link.bits with level := lrxDominant s } } }

/-- The own mark ends: the mark state returns to NONE and LTX is released (R7). The tick in which it ends is the first one without
the own drive, so the level remembered of it is the one that the other stations give: a station that drives from the next tick on
makes a transition (R1). -/
def markEndStep (s : State) : State :=
  if s.link.mark = .driving then
    noteLevel { s with link := { s.link with mark := .quiet, bits := { s.link.bits with driven := 0 } } }
  else s

/-- MARK_DRIVE_END (R7). -/
def execMarkDriveEnd (s : State) : Out := whilePowered s markEndStep

/-- A dominant run of twelve bit times that began at timer value `start` (R8): a mark is processed as the station state asks
(R10); a run that began in a window spoils that window's frame; any other is ignored. In OFFLINE it can only leave the report of
a discarded claim (R90). -/
def runStep (start : Nat) (s : State) : State :=
  if s.station = .offline then discardedClaim (markClaim start) s
  else
    match runKind s start with
    | .mark => if onLink s then linkMark start s else acquisitionMark start s
    | .disturbance => spoilWindow (Fin.ofNat 16 ((start - 16) / 176)) s
    | .ignored => s

/-- MARK_ACCEPTED (R8, R10). -/
def execMarkAccepted (start : Nat) (s : State) : Out := whilePowered s (runStep start)

/-- LINE_DISTURBANCE (R8, R15), on the link. In LISTENING every run of twelve bit times is a mark. -/
def execLineDisturbance (window : StationNo) (s : State) : Out :=
  whilePowered s fun s => if onLink s then spoilWindow window s else s

/-- The cycle timer has been started by a mark: on the link, and in LISTENING after the first mark (R6). -/
def timerRuns (s : State) : Bool := onLink s || (s.station == .listening && s.acq.phase != .seek)

/-- The withdrawal claim of a timeout, as the report of its claimant in OFFLINE (R6, R88). -/
def timeoutClaim (s : State) : Option ReportBody :=
  if timerRuns s then some (.linkMismatch .markTimeout 0 .offline) else none

/-- MARK_TIMEOUT (R6): in LISTENING after the first mark, and on the link. In OFFLINE it can only leave the report of a discarded
claim (R90). -/
def timeoutStep (s : State) : State :=
  if s.station = .offline then discardedClaim timeoutClaim s
  else if timerRuns s then mismatchWithdraw .markTimeout 0 s
  else s

/-- MARK_TIMEOUT (R6). -/
def execMarkTimeout (s : State) : Out := whilePowered s timeoutStep

/-- LONE_START (R84): in SEEK. -/
def loneStep (s : State) : State :=
  if s.station = .listening ∧ s.acq.phase = .seek then loneJoined s else s

/-- LONE_START (R84). -/
def execLoneStart (s : State) : Out := whilePowered s loneStep

/-- OWN_WINDOW_START (R12, R23, R50), on the link. -/
def execOwnWindowStart (s : State) : Out := whilePowered s fun s => if onLink s then ownWindow s else s

/-- FRAME_RECEIVED (R14, R16, R28, R30); in OFFLINE it can only leave the report of a discarded claim (R90). -/
def execFrameReceived (window : StationNo) (bytes : List Byte) (s : State) : Out :=
  whilePowered s fun s =>
    if s.station = .offline then discardedClaim (frameClaim window bytes) s else completeFrame window bytes s

/-- WINDOW_END (R13, R14, R34); in OFFLINE it can only leave the report of a discarded claim (R90). -/
def execWindowEnd (window : StationNo) (s : State) : Out :=
  whilePowered s fun s => if s.station = .offline then discardedClaim (windowClaim window) s else endWindow window s

/-- RECEPTION_ERROR (R15). -/
def execReceptionError (window : StationNo) (s : State) : Out := whilePowered s (spoilWindow window)

/-- READBACK_MISMATCH (R13): while the station sends its own frame. -/
def execReadbackMismatch (s : State) : Out :=
  whilePowered s fun s => if onLink s = true ∧ s.link.txBuffer ≠ [] then stopSending s else s

end Sys2Proof.Machine
end

