-- ==== Sys2Proof/Machine/OutputCommands.lean ====
section
/-! DEFINITION. The meanings of the events of the carrier and the gates (R104, R111, R112) and of the Trip Unit (R132, R144). An
event that the rules do not let happen in the state it finds has no effect (log entry 8). -/

namespace Sys2Proof.Machine

/-- The position of a load position (R104). -/
def loadPositionAt (c : Carrier) : LoadPosition → Nat
  | .valley => 0
  | .peak => c.period / 2

/-- The load-point setting has a load position (R104). -/
def settingHas (setting : Option LoadSetting) (position : LoadPosition) : Bool :=
  match setting, position with
  | some .valley, .valley | some .peak, .peak | some .both, _ => true
  | _, _ => false

/-- A load point is reached by advancing (R104, R105, R123), and the STARVED cause is raised if the load brings it (R125). -/
def loadPointStep (position : LoadPosition) (s : State) : State :=
  if s.carrier.running = true ∧ settingHas s.carrier.loadSetting position = true then
    let (s, raised) := advanceAndLoad (loadPositionAt s.carrier position) s
    raiseStarved raised s
  else s

/-- LOAD_POINT (R104). -/
def execLoadPoint (position : LoadPosition) (s : State) : Out := whilePowered s (loadPointStep position)

/-- COMPARE_CROSSING (R111): the running carrier reaches a position of its period, and every leg is judged there. -/
def crossingStep (position : Nat) (s : State) : State :=
  if s.carrier.running = true ∧ position < s.carrier.period then advanceTo position s else s

/-- COMPARE_CROSSING (R111). -/
def execCompareCrossing (position : Nat) (s : State) : Out := whilePowered s (crossingStep position)

/-- The wait of a pending gate ends with the gate on, its count at the dead time in force (R112, R115); nothing where that gate is
not pending, as after a fall of its demand or a forcing taken first, or has not waited as long (R112, R116). -/
def deadTimeStep (leg : Leg) (gate : Side) (s : State) : State :=
  let l := s.gate.legs.get leg
  if s.station = .running ∧ l.pending = some gate ∧ s.gate.deadTime ≤ l.count then
    { s with gate := { s.gate with legs := s.gate.legs.modify leg turnOn } }
  else s

/-- DEAD_TIME_ELAPSED (R112). -/
def execDeadTimeElapsed (leg : Leg) (gate : Side) (s : State) : Out := whilePowered s (deadTimeStep leg gate)

/-- The withdrawal claim that a fault input makes by asserting during acquisition, as the report of its claimant in OFFLINE (R85,
R88). -/
def faultClaim (i : Fin 4) (s : State) : Option ReportBody :=
  if (s.station = .listening ∨ s.now.arrived = true) ∧ (rowOf s.tables (.fault i)).action = .trip then some (.joinAborted i)
  else none

/-- The filtered level of a fault input, whose run has reached the filter length, takes its opposite level (R132); when it becomes
asserted, a LISTENING station handles it by acquisition (R85), and on the link its cause is raised (R133). In OFFLINE it can only
leave the report of a discarded claim (R90). Where the acquisition has ended in the same tick with the entry into JOINED, the
indication of R85 follows that entry, and the station withdraws (R90). -/
def faultLevelStep (i : Fin 4) (s : State) : State :=
  if filterRipe s s.trip.faults[i] then
    let f := flipFilter s.trip.faults[i]
    let s := setFaultFilter i f s
    if f.asserted then
      match s.station with
      | .offline => discardedClaim (faultClaim i) s
      | .listening => acquisitionFault i s
      | .joined | .running | .tripped => if s.now.arrived then acquisitionFault i s else takeOwnCause (.fault i) s
    else s
  else s

/-- TRIP_LINE raised by the filtered level becoming asserted (R133). A station that another cause of the same tick has tripped
takes it as the causes raised before a trip entry and taken after it (R139). -/
def tripLineRaised (s : State) : State :=
  if s.station = .tripped ∧ s.now.entered = true then
    match (rowOf s.tables .tripLine).action with
    | .ignore | .respace => s
    | .report => postSelf (.causeSeen .tripLine s.station none) s
    | .trip => addCause .tripLine s.number none s
  else takeOwnCause .tripLine s

/-- The filtered trip-line level, whose run has reached the filter length, takes its opposite level (R132); when it becomes
asserted, TRIP_LINE is raised (R133). -/
def tripLevelStep (s : State) : State :=
  if filterRipe s s.trip.tripLine then
    let f := flipFilter s.trip.tripLine
    let s := { s with trip := { s.trip with tripLine := f } }
    if f.asserted then tripLineRaised s else s
  else s

/-- The change of a filtered level (R132). -/
def levelStep : FilteredInput → State → State
  | .flt i => faultLevelStep i
  | .trpn => tripLevelStep

/-- FILTERED_LEVEL_CHANGE (R132, R133). -/
def execFilteredLevelChange (input : FilteredInput) (s : State) : Out := whilePowered s (levelStep input)

/-- CLEAR_SAMPLE (R144, R146). -/
def execClearSample (trpnLow : Bool) (s : State) : Out := whilePowered s (clearSampleStep trpnLow)

end Sys2Proof.Machine
end

