-- ==== Sys2Proof/Machine/Dispatch.lean ====
section
/-! DEFINITION. One arm per command of spec/opcode_table.json, each a direct call of the command's meaning. -/

namespace Sys2Proof.Machine

def exec (i : Instr) (s : State) : Host.Outcome State Fault Refusal :=
  match i with
  | .powerOn ids => Sys2Proof.Machine.execPowerOn ids s
  | .nop => Sys2Proof.Machine.execNop s
  | .join => Sys2Proof.Machine.execJoin s
  | .leave => Sys2Proof.Machine.execLeave s
  | .restart => Sys2Proof.Machine.execRestart s
  | .propose => Sys2Proof.Machine.execPropose s
  | .hold => Sys2Proof.Machine.execHold s
  | .release => Sys2Proof.Machine.execRelease s
  | .clear => Sys2Proof.Machine.execClear s
  | .stop => Sys2Proof.Machine.execStop s
  | .push => Sys2Proof.Machine.execPush s
  | .flush => Sys2Proof.Machine.execFlush s
  | .tread => Sys2Proof.Machine.execTread s
  | .twrite => Sys2Proof.Machine.execTwrite s
  | .recallResult => Sys2Proof.Machine.execRecall s
  | .unknownCommand code => Sys2Proof.Machine.execUnknownCommand code s
  | .registerWrite address value => Sys2Proof.Machine.execRegisterWrite address value s
  | .reportRead => Sys2Proof.Machine.execReportRead s
  | .timerReachesL dominant => Sys2Proof.Machine.execTimerReachesL dominant s
  | .deferredMarkStart => Sys2Proof.Machine.execDeferredMarkStart s
  | .markDriveEnd => Sys2Proof.Machine.execMarkDriveEnd s
  | .markAccepted start => Sys2Proof.Machine.execMarkAccepted start s
  | .lineDisturbance window => Sys2Proof.Machine.execLineDisturbance window s
  | .markTimeout => Sys2Proof.Machine.execMarkTimeout s
  | .loneStart => Sys2Proof.Machine.execLoneStart s
  | .ownWindowStart => Sys2Proof.Machine.execOwnWindowStart s
  | .frameReceived window bytes => Sys2Proof.Machine.execFrameReceived window bytes s
  | .windowEnd window => Sys2Proof.Machine.execWindowEnd window s
  | .loadPoint position => Sys2Proof.Machine.execLoadPoint position s
  | .compareCrossing position => Sys2Proof.Machine.execCompareCrossing position s
  | .deadTimeElapsed leg gate => Sys2Proof.Machine.execDeadTimeElapsed leg gate s
  | .filteredLevelChange input => Sys2Proof.Machine.execFilteredLevelChange input s
  | .clearSample trpnLow => Sys2Proof.Machine.execClearSample trpnLow s
  | .rstnLow => Sys2Proof.Machine.execRstnLow s
  | .receptionError window => Sys2Proof.Machine.execReceptionError window s
  | .readbackMismatch => Sys2Proof.Machine.execReadbackMismatch s

end Sys2Proof.Machine
end

