-- ==== Sys2Proof/Machine/Port.lean ====
section
/-! DEFINITION. The SPI port (R160, R170): what one tick of the clock makes of the levels on CSn, SCK and SDI. The port is sampled
once per tick, before the other events of the tick are taken (log entry 35). -/

namespace Sys2Proof.Machine

/-- The bytes of the register at an address; past the window an address has none (R161). -/
def registerSize (address : BitVec 7) : Nat :=
  if address = 0x00 then 2
  else if address = 0x01 then 3
  else if address = 0x02 then 2
  else if address ≤ 0x15 then 1
  else if address = 0x16 then 8
  else if address = 0x17 then 2
  else if address = 0x18 then 3
  else if address = 0x19 then 4
  else 0

/-- The address and byte offset that follow a data byte (R160): the next byte of the register, or the first of the next register;
after REPORT's eighth byte REPORT again; past the window the address has no register. -/
def followingByte (address : BitVec 7) (offset : Nat) : BitVec 7 × Nat :=
  if offset + 1 < registerSize address then (address, offset + 1)
  else if address = 0x16 then (address, 0)
  else if address ≤ 0x19 then (address + 1, 0)
  else (address, 0)

/-- The command of a byte written to an address (R161, R162). -/
def writeCommand (address : BitVec 7) (value : Byte) : Instr :=
  if address = 0x03 then commandOf value else .registerWrite address value

/-- The port replaced. -/
def setPort (p : SpiPort) (s : State) : State := { s with host := { s.host with port := p } }

/-- What a whole byte makes of a transfer, and the command it brings (R160, R162, R170): the command byte gives the direction and
the address; a data byte of a write is written, and the eighth byte of REPORT completes its read. -/
def endByte (t : Transfer) (value : Byte) : Transfer × List Instr :=
  match t with
  | .command =>
    (if value.getLsbD 7 then .read (value.extractLsb' 0 7) 0 else .write (value.extractLsb' 0 7) 0, [])
  | .write a o => (.write (followingByte a o).1 (followingByte a o).2, [writeCommand a value])
  | .read a o =>
    (.read (followingByte a o).1 (followingByte a o).2, if a = 0x16 ∧ o = 7 then [.reportRead] else [])

/-- A rising edge of SCK: SDI is sampled, most significant bit first, and the eighth bit completes a byte (R160). -/
def sampleBit (s : State) : State × List Instr :=
  let p := s.host.port
  let value := (p.shift <<< 1) ||| (if s.pins.sdi then 1 else 0)
  if p.count < 7 then (setPort { p with count := p.count + 1, shift := value } s, [])
  else
    let (transfer, commands) := endByte p.transfer value
    (setPort { p with count := 0, shift := 0, transfer := transfer } s, commands)

/-- A data byte of a read is about to shift out, the first one of its register (R160). -/
def registerBegins (p : SpiPort) : Bool :=
  match p.transfer with
  | .read _ offset => p.count == 0 && offset == 0
  | .command | .write _ _ => false

/-- The register at an address is latched, and with REPORT the entry to be popped (R160, R170). -/
def latchRegister (address : BitVec 7) (s : State) : State :=
  setPort { s.host.port with
    latched := registerBytes s address
    entry := if address = 0x16 then some (reportWindow s, !s.host.reports.isEmpty) else s.host.port.entry } s

/-- A falling edge of SCK: SDO takes the next bit (R160). It is 0 during the command byte, a bit of the latched register in a read,
and not stated in a write, where the level is free. -/
def shiftOut (s : State) : State :=
  match s.host.port.transfer with
  | .command => setPort { s.host.port with out := false } s
  | .write _ _ => setPort { s.host.port with out := Config.unstatedLevel s.free } { s with free := s.free + 1 }
  | .read address offset =>
    let s := if registerBegins s.host.port then latchRegister address s else s
    let byte := s.host.port.latched.getD offset 0
    setPort { s.host.port with out := byte.getLsbD (7 - s.host.port.count) } s

/-- One tick of the port (R160). CSn high ends a transfer, with a byte in progress and the entry of a partial read discarded; CSn
low begins one; inside a transfer the two edges of SCK act. -/
def tickPort (s : State) : State × List Instr :=
  let p := s.host.port
  if s.pins.csn then (setPort { SpiPort.rest with clock := s.pins.sck } s, [])
  else if p.selected = false then (setPort { SpiPort.rest with selected := true, clock := s.pins.sck } s, [])
  else if s.pins.sck = p.clock then (s, [])
  else
    let s := setPort { p with clock := s.pins.sck } s
    if s.pins.sck then sampleBit s else (shiftOut s, [])

end Sys2Proof.Machine
end

