-- ==== Sys2Proof/Machine/Tick.lean ====
section
/-! DEFINITION. One tick of the station clock (log entry 1): what a step does when no command waits. The SPI port, the carrier, the
dead-time counts, the filters, the settle and the bit engine of the link advance by one tick, and the commands that fall due are
put into the queue. -/

namespace Sys2Proof.Machine

/-! ## The bit engine of the link (R1, R3, R5 to R8, R14) -/

/-- The window that ends when the timer takes a value, if any (R5). -/
def windowEnding (s : State) (t : Nat) : Option StationNo :=
  if 16 < t ∧ t ≤ tailStart s ∧ (t - 16) % 176 = 0 then some (Fin.ofNat 16 ((t - 16) / 176 - 1)) else none

/-- The dominant run after one more bit time with a sample, at a timer value; and the start of the run when this bit time is its
twelfth (R1, R8). -/
def runAfter (sample : Bool) (t : Nat) (run : LineRun) : LineRun × Option Nat :=
  if sample then
    match run with
    | .between => (.counting t 1, none)
    | .counting start n => if n + 1 = 12 then (.passed, some start) else (.counting start (n + 1), none)
    | .passed => (.passed, none)
  else (.between, none)

/-- What a bit time brings to the receiver. -/
inductive RxEvent where
  | nothing
  | error
  | frame
  deriving DecidableEq, Repr

/-- The byte that eight data bits make, true for dominant and so for 0, least significant bit first (R1, R3). -/
def byteOf (bits : List Bool) : Byte := bits.foldr (fun dominant b => (b <<< 1) ||| (if dominant then 0 else 1)) 0

/-- A byte has been assembled (R3): the frame is complete, or cannot go on because byte 0 carries both flags, or its next byte is
awaited. -/
def byteDone (bytes : List Byte) : RxPhase × RxEvent :=
  match bytes with
  | [] => (.gap 0, .nothing)
  | b0 :: _ =>
    match frameLength b0 with
    | none => (.done, .frame)
    | some n => if n ≤ bytes.length then (.done, .frame) else (.gap 0, .nothing)

/-- The receiver after one more bit time in a window, from the sample, the sample before it and the window offset (R3, R14): the
phase, the bytes assembled, and what the bit time brings. -/
def rxAfter (sample previous : Bool) (offset : Nat) (phase : RxPhase) (bytes : List Byte) : RxPhase × List Byte × RxEvent :=
  match phase with
  | .hunt =>
    if sample = true ∧ previous = false then
      if 4 ≤ offset ∧ offset ≤ 12 then (.data [], bytes, .nothing) else (.done, bytes, .error)
    else (.hunt, bytes, .nothing)
  | .data bits =>
    if bits.length = 7 then (.stop (bits ++ [sample]), bytes, .nothing) else (.data (bits ++ [sample]), bytes, .nothing)
  | .stop bits =>
    if sample then (.done, bytes, .error)
    else
      let bytes := bytes ++ [byteOf bits]
      let (phase, event) := byteDone bytes
      (phase, bytes, event)
  | .gap n =>
    if sample then (.data [], bytes, .nothing)
    else if n = 2 then (.done, bytes, .error)
    else (.gap (n + 1), bytes, .nothing)
  | .done => (.done, bytes, .nothing)

/-- The commands a bit time brings from the receiver in a window. -/
def rxCommands (window : Option StationNo) (bytes : List Byte) (event : RxEvent) : List Instr :=
  match window, event with
  | some k, .error => [.receptionError k]
  | some k, .frame => [.frameReceived k bytes]
  | _, _ => []

/-- The commands that the twelfth bit time of a run brings (R8). -/
def runCommands (s : State) (judged : Option Nat) : List Instr :=
  match judged with
  | none => []
  | some start =>
    match runKind s start with
    | .mark => [.markAccepted start]
    | .disturbance => (windowAt s start).toList.map .lineDisturbance
    | .ignored => []

/-- The command is the acceptance of a mark. -/
def isMark : Instr → Bool
  | .markAccepted _ => true
  | _ => false

/-- The commands that fall due when the cycle timer takes the value `t` (R5, R6, R7, R12). At L the station begins its mark at the
start of the bit time where the line is `idle`: recessive there, and sampled recessive in the bit time before. Elsewhere the sample
of the bit time decides (log entry 11: DEDUCED). -/
def timerCommands (s : State) (t : Nat) (idle : Bool) : List Instr :=
  (if receiving s then (windowEnding s t).toList.map .windowEnd else [])
  ++ (if onLink s = true ∧ t = windowStart s.number then [.ownWindowStart] else [])
  ++ (if onLink s = true ∧ s.link.mark = .quiet ∧ t = cycleLength s ∧ idle = true then [.timerReachesL false] else [])
  ++ (if t = 2 * cycleLength s then [.markTimeout] else [])

/-- The bits of the own frame after a bit time, and whether one is on the line in the next: sending begins at offset 8 of the own
window (R12). -/
def txAfter (s : State) (t : Nat) : List Bool × Bool :=
  let b := s.link.bits
  if b.sending then (b.txBits.tail, !b.txBits.tail.isEmpty)
  else (b.txBits, onLink s && !b.txBits.isEmpty && decide (t = windowStart s.number + 8))

/-- A bit time that counts has ended with a sample (R1): the timer, the elapsed count, the run, the receiver, the own mark and the
own frame move on by one bit time, and the commands that fall due follow. An accepted mark takes the place of what the timer
would bring (R6). A dominant bit time of the own mark is one that the line shows dominant, which leaves out the recessive bit time
that a mark has cut short. The lone expiry is taken by the level of the line as the bit time starts (R84; log entry 36: DESIGN
CHOICE). -/
def bitEnd (s : State) : State × List Instr :=
  let b := s.link.bits
  let t := s.link.timer
  let seeking := s.station == .listening && s.acq.phase == .seek
  let elapsed := if seeking then min (4 * cycleLength s) (s.acq.elapsed + 1) else s.acq.elapsed
  let t' := if timerRuns s then t + 1 else t
  let (run, judged) := runAfter b.sample t b.run
  let window := if receiving s then windowAt s t else none
  let (rx, bytes, event) :=
    match window with
    | none => (b.rx, s.link.rxBuffer, RxEvent.nothing)
    | some k => rxAfter b.sample b.previous (t - windowStart k) b.rx s.link.rxBuffer
  let (txBits, sending) := txAfter s t'
  let driven := if s.link.mark = .driving then (if b.sample then b.driven + 1 else b.driven) else 0
  let s' := { s with
    acq := { s.acq with elapsed := elapsed }
    link := { s.link with
      timer := t', rxBuffer := bytes
      bits := { b with
        phase := 0, sampled := false, previous := b.sample, run := run, driven := driven, txBits := txBits,
        sending := sending, rx := rx } } }
  let dominant := lrxDominant s'
  let marks := runCommands s judged
  let ends := if driven = 12 then [Instr.markDriveEnd] else []
  if marks.any isMark then (s', marks ++ ends)
  else
    (s', rxCommands window bytes event ++ marks
      ++ (if timerRuns s then timerCommands s t' (!dominant && !b.sample) else [])
      ++ (if seeking = true ∧ 4 * cycleLength s ≤ elapsed ∧ dominant = false then [.loneStart] else [])
      ++ ends)

/-- The commands that a sample brings (R7, R13): the decision of a bit time in which the timer stands at L in mark state NONE, the
start of a deferred mark at a recessive sample, and a difference from the bit being sent. -/
def sampleCommands (s : State) (level : Bool) : List Instr :=
  let b := s.link.bits
  (if onLink s = true ∧ s.link.mark = .quiet ∧ s.link.timer = cycleLength s then [.timerReachesL level] else [])
  ++ (if onLink s = true ∧ s.link.mark = .deferred ∧ level = false then [.deferredMarkStart] else [])
  ++ (if b.sending = true ∧ b.txBits.headD false ≠ level then [.readbackMismatch] else [])

/-- The sample of a bit time, D/2 ticks after its start (R1). -/
def takeSample (s : State) : State × List Instr :=
  let b := s.link.bits
  if b.phase = ticksOf s.tables.link.divisor / 2 ∧ b.sampled = false then
    let level := lrxDominant s
    ({ s with link := { s.link with bits := { b with sampled := true, sample := level } } },
      sampleCommands s level)
  else (s, [])

/-- The bit time in progress stands at a number of ticks. -/
def setPhase (n : Nat) (s : State) : State := { s with link := { s.link with bits := { s.link.bits with phase := n } } }

/-- A recessive-to-dominant transition starts a new bit time (R1). The bit time it cuts short counts if its sample has been taken,
and is dropped if it has not. Where the sample is due in that very tick, which of the two is first is open; a sample taken first
reads the level that LRX has at that tick, dominant (log entry 33: DESIGN CHOICE). The bit of the own frame that a dropped bit time
carried is sent in the new one (log entry 38: DESIGN CHOICE). -/
def transition (s : State) : State × List Instr :=
  let b := s.link.bits
  if b.sampled then bitEnd s
  else if b.phase + 1 = ticksOf s.tables.link.divisor / 2 then
    let (sampleFirst, s) := chooseFirst s
    if sampleFirst then
      let (s, sampled) := takeSample (setPhase (b.phase + 1) s)
      let (s, ended) := bitEnd s
      (s, sampled ++ ended)
    else (setPhase 0 s, [])
  else (setPhase 0 s, [])

/-- One tick of the bit engine (R1): the bit time ends after D ticks, or at a recessive-to-dominant transition; then the sample of
the bit time in progress, when it is due. Nothing in OFFLINE, where LRX is ignored. -/
def tickLine (s : State) : State × List Instr :=
  if s.station = .offline then (s, [])
  else
    let b := s.link.bits
    let (s, ended) :=
      if b.phase + 1 = ticksOf s.tables.link.divisor then bitEnd s
      else if lrxDominant s = true ∧ b.level = false then transition s
      else (setPhase (b.phase + 1) s, [])
    let (s, sampled) := takeSample (noteLevel s)
    (s, ended ++ sampled)

/-! ## Carrier and gates (R95, R104, R112) -/

/-- The command of a load position that the carrier reaches by advancing to `position` (R104). -/
def loadCommands (c : Carrier) (position : Nat) : List Instr :=
  (if position = 0 ∧ settingHas c.loadSetting .valley = true then [.loadPoint .valley] else [])
  ++ (if position ≠ 0 ∧ position = c.period / 2 ∧ settingHas c.loadSetting .peak = true then [.loadPoint .peak] else [])

/-- A leg's demand differs between two carrier values (R111). -/
def crosses (l : LegState) (before after : Nat) : Bool :=
  demand l.mode l.compare before != demand l.mode l.compare after

/-- One tick of a running carrier (R95): the position advances, and a load point falls due, whose command judges the advance too,
or a crossing. A load position that a backward correction has the carrier run again signals no load point (R100). -/
def tickCarrier (s : State) : State × List Instr :=
  if s.carrier.running then
    let before := carrierNow s
    let position := naturalPosition s.carrier
    let again := s.carrier.rerun
    let s := { s with carrier := { s.carrier with position := position, setThisTick := false, rerun := again - 1 } }
    let legs := s.gate.legs
    let crossing := crosses legs.a before (carrierNow s) || crosses legs.b before (carrierNow s)
      || crosses legs.c before (carrierNow s)
    let loads := if again = 0 then loadCommands s.carrier position else []
    (s, if loads.isEmpty then (if crossing then [.compareCrossing position] else []) else loads)
  else (s, [])

/-- One tick of a leg's dead-time count (R112): the wait of a pending gate grows by one. -/
def countStep (l : LegState) : LegState :=
  match l.pending with
  | none => l
  | some _ => { l with count := l.count + 1 }

/-- The command of a pending gate whose count has reached the dead time (R112). -/
def gateDue (d : Nat) (leg : Leg) (l : LegState) : List Instr :=
  match l.pending with
  | none => []
  | some side => if d ≤ l.count then [.deadTimeElapsed leg side] else []

/-- One tick of the dead-time counts of the three legs (R112). -/
def tickGates (s : State) : State × List Instr :=
  let legs := s.gate.legs.map countStep
  let d := s.gate.deadTime
  ({ s with gate := { s.gate with legs := legs } }, gateDue d .a legs.a ++ gateDue d .b legs.b ++ gateDue d .c legs.c)

/-! ## Filters and settle (R132, R144) -/

/-- One tick of a filtered input sampled at a level (R132). -/
def filterStep (level : Bool) (f : Filter) : Filter :=
  if level = f.asserted then { f with run := 0 } else { f with run := f.run + 1 }

/-- The command of a filtered input whose run has reached the filter length (R132). -/
def filterDue (ticks : Nat) (input : FilteredInput) (f : Filter) : List Instr :=
  if ticks ≤ f.run then [.filteredLevelChange input] else []

/-- One tick of the five filtered inputs, with the commands of each (R132). -/
def tickFilters (s : State) : State × List (List Instr) :=
  let faults := Vector.ofFn fun i : Fin 4 => filterStep s.pins.faults[i] s.trip.faults[i]
  let tripLine := filterStep (trpnLow s) s.trip.tripLine
  let ticks := filterTicks s
  ({ s with trip := { s.trip with faults := faults, tripLine := tripLine } },
    faultInputs.map (fun i => filterDue ticks (.flt i) faults[i]) ++ [filterDue ticks .trpn tripLine])

/-- One tick of a settle: its sample falls due after 40 ticks (R144). -/
def tickSettle (s : State) : State × List Instr :=
  if s.trip.settling then
    ({ s with trip := { s.trip with settled := s.trip.settled + 1 } },
      if s.trip.settled + 1 = 40 then [.clearSample (trpnLow s)] else [])
  else (s, [])

/-! ## The tick -/

/-- The groups of commands that fall due in one tick, put one after the other in an order that is open where there are two or
more (log entry 2). -/
def orderGroups (groups : List (List Instr)) (s : State) : List Instr × State :=
  let due := groups.filter fun g => !g.isEmpty
  if due.length ≤ 1 then (due.flatten, s)
  else ((arrange due (Config.tickOrder s.free)).flatten, { s with free := s.free + 1 })

/-- A tick begins: the gate pins show what the last tick has left, and nothing has happened in this one (R110, R139; log entry
29). -/
def beginTick (s : State) : State :=
  { s with now := { shown := pinLevels s, entered := false, arrived := false, waiting := [], left := none } }

/-- One tick of the station clock (log entry 1). In a tick that accepts a mark the re-phase takes the place of the carrier's
advance (R100). The gates whose dead time has elapsed turn on last, under the dead time then in force, because no other order
keeps the wait of R115; the other orders that the rules allow end the tick alike (R112, R116). While RSTn is low nothing
moves. -/
def tick (s : State) : State :=
  if s.pins.rstn then
    let (s, port) := tickPort (beginTick s)
    let (s, line) := tickLine s
    let (s, gates) := tickGates s
    let (s, carrier) := if line.any isMark then (s, []) else tickCarrier s
    let (s, filters) := tickFilters s
    let (s, settle) := tickSettle s
    let (due, s) := orderGroups (filters ++ [settle, port, line, carrier]) s
    { s with pending := due ++ gates }
  else s

/-- What a step does when no command waits. The causes and contents that have waited for the other events of their tick are taken
first, one a step, because they belong to that tick (R28, R139); then the clock makes one tick. -/
def idle (s : State) : State :=
  match s.now.waiting with
  | [] => tick s
  | p :: rest => if s.pins.rstn then takePostponed p { s with now := { s.now with waiting := rest } } else s

end Sys2Proof.Machine
end

