-- ==== Sys2Proof/Safety.lean ====
section
/-! DEFINITION. What a safe station is: the laws of the device that the reference names, each as a property of a state that
every step keeps; and the receiver run over the bits of a whole frame. -/

namespace Sys2Proof.Machine

/-! ## The laws of the device -/

/-- The report queue holds at most 16 entries (R169) and the setpoint queue at most 4 records (R119). -/
structure QueuesBounded (s : State) : Prop where
  reports : s.host.reports.length ≤ 16
  setpoints : s.setpoint.queue.length ≤ 4

/-- A leg is safe: its two gates are not on together, and while one of them is pending both are off (R112). -/
def legSafe (l : LegState) : Prop :=
  ¬(l.upper = true ∧ l.lower = true) ∧ (l.pending ≠ none → l.upper = false ∧ l.lower = false)

/-- The law of the outputs (R93, R112, R116): every leg is safe; outside RUNNING the Gate Stage is forced off and the carrier is
stopped, and in RUNNING the carrier runs. -/
structure OutputLaw (s : State) : Prop where
  legs : ∀ leg : Leg, legSafe (s.gate.legs.get leg)
  off : s.station ≠ .running → s.gate = Gate.off ∧ s.carrier = Carrier.stopped
  runs : s.station = .running → s.carrier.running = true

/-- A set and a profile pair: the profile is 0 exactly when the set is empty (R27, R47). -/
def paired (set : StationSet) (profile : ProfileNo) : Prop := set = 0 ↔ profile = 0

/-- The station is in a state in which it takes part in no group: OFFLINE, LISTENING or TRIPPED. -/
def apart (st : StationState) : Prop := st = .offline ∨ st = .listening ∨ st = .tripped

/-- The law of the view (R38, R46, R47): a station is RUNNING exactly when it is a member of its own view; the view, the change
in the slot and every collected pair are paired; the view and the slot are empty in OFFLINE, LISTENING and TRIPPED; the lost set
lies in the view and does not contain the station. -/
structure ViewLaw (s : State) : Prop where
  running : s.station = .running ↔ member s.number s.change.view = true
  view : paired s.change.view s.change.profile
  apart : apart s.station → s.change.view = 0 ∧ s.change.slot = Slot.vacant
  slot : s.change.slot.state ≠ .vacant → paired s.change.slot.newSet s.change.slot.newProfile
  collected : ∀ pair ∈ s.change.collection, paired pair.1 pair.2
  lost : subset s.roster.lost s.change.view = true ∧ member s.number s.roster.lost = false

/-- The law of the trip record (R131, R137, R140, R144): outside TRIPPED it is clear and no CLEAR settles; in TRIPPED it has a first
cause, which is in the cause set. -/
structure RecordLaw (s : State) : Prop where
  clear : s.station ≠ .tripped →
    s.trip.first = none ∧ s.trip.causes = 0 ∧ s.trip.entry = 0 ∧ s.trip.drive = false ∧ s.trip.settling = false
  tripped : s.station = .tripped → ∃ c, s.trip.first = some c ∧ hasCause c s.trip.causes = true

/-- The fields of a LINK entry lie in their ranges (R151, R152). -/
def linkInRange (l : LinkTable) : Prop :=
  32 + 176 * countOf l.count ≤ l.cycleLength ∧ l.cycleLength ≤ 8191 ∧ 3 ≤ l.lead ∧ l.lead ≤ 15 ∧ 1 ≤ l.missLimit ∧
    l.missLimit ≤ 4 ∧ l.starveLimit ≤ 15 ∧ l.faultFilter ≤ 15

/-- The fields of a PROFILE entry lie in their ranges (R155). -/
def profileInRange (p : Profile) : Prop :=
  1 ≤ p.deadTime ∧ p.deadTime ≤ 255 ∧ 1 ≤ p.patternLength ∧ p.patternStart ≤ 63 ∧ p.patternStart + p.patternLength ≤ 64

/-- A CAUSE row is one that its index allows (R134, R156). -/
def rowAllowed (index : Fin 9) (r : CauseRow) : Prop :=
  actionAllowed index r.action = true ∧ (r.drive = true → r.action = .trip ∧ index ≠ 4)

/-- The law of the tables (R125, R134, R150, R151, R154, R155): every stored entry is in range, PROFILE 0 is the parked profile,
the tables are frozen exactly outside OFFLINE, and the starve count stays at or below the starve limit, and at 0 outside
RUNNING. -/
structure TableLaw (s : State) : Prop where
  link : linkInRange s.tables.link
  profiles : ∀ i : Fin 8, profileInRange s.tables.profiles[i]
  parked : s.tables.profiles[0] = Profile.parked
  causes : ∀ i : Fin 9, rowAllowed i s.tables.causes[i]
  frozen : s.tables.frozen = true ↔ s.station ≠ .offline
  starve : s.setpoint.starve ≤ s.tables.link.starveLimit
  idle : s.station ≠ .running → s.setpoint.starve = 0

/-- The law of what a station sends (R20, R22, R27, R36, R49, R78): on the link its number is below S and the sets of its view
and its slot name only stations below S; only entries of other stations below S are ever heard; a local change is based on the
view and the profile as they stand, with an electorate inside the union of the view and the new set; the proposer of a local
change is the station and that of a remote one another station below S. -/
structure FrameLaw (s : State) : Prop where
  number : s.station ≠ .offline → s.number.val < stationCount s
  view : setBelow s.tables.link.count s.change.view = true
  slot : setBelow s.tables.link.count s.change.slot.newSet = true ∧
    setBelow s.tables.link.count s.change.slot.electorate = true
  collected : ∀ pair ∈ s.change.collection, setBelow s.tables.link.count pair.1 = true
  heard : ∀ k : StationNo, (entryOf s k).presence ≠ .unseen → k ≠ s.number ∧ k.val < stationCount s
  own : s.change.slot.state ≠ .vacant → s.change.slot.remote = false →
    s.change.slot.proposer = s.number ∧ subset s.change.slot.electorate (s.change.view ||| s.change.slot.newSet) = true
  other : s.change.slot.state ≠ .vacant → s.change.slot.remote = true →
    s.change.slot.proposer ≠ s.number ∧ s.change.slot.proposer.val < stationCount s
  quiet : s.station = .offline → s.change = ChangeUnit.empty s.change.sequence ∧ s.roster = Roster.empty

/-! ## What a withdrawal and a trip entry leave -/

/-- A report as it is posted in a state. -/
def reportOf (body : ReportBody) (subject : StationNo) (s : State) : Report :=
  { body := body, gap := false, cycle := s.link.cycle, subject := subject }

/-- Reports posted one after the other (R169). -/
def postAll (reports queue : List Report) : List Report := reports.foldl arrive queue

/-- The CHANGE_CLOSED ABANDONED of a slot that holds a change (R66, R67). -/
def abandonedReports (reason : CloseReason) (s : State) : List Report :=
  let c := s.change.slot
  if c.state = .vacant then []
  else [reportOf (.changeClosed .abandoned c.sequence c.remote c.automatic reason) c.proposer s]

/-- State `t` is what a withdrawal with this cause leaves of state `s`, after the claimant's reports (R88, R89): every row of the
table of R89, the report queue, TRPn and LTX released, and all that a withdrawal keeps. RESULT and the last command are left to
the caller. -/
structure Withdrawn (cause : WithdrawalCause) (claimant : List Report) (s t : State) : Prop where
  station : t.station = .offline ∧ t.acq = Acquisition.start
  link : t.link = Link.rest s.link.cycle
  roster : t.roster = Roster.empty
  change : t.change = ChangeUnit.empty s.change.sequence
  outputs : t.carrier = Carrier.stopped ∧ t.gate = Gate.off ∧ t.setpoint = SetpointUnit.empty
  trip : t.trip = { TripUnit.empty with faults := s.trip.faults, tripLine := s.trip.tripLine }
  tables : t.tables = { s.tables with frozen := false }
  registers : t.host.args = s.host.args ∧ t.host.tsel = s.host.tsel ∧ t.host.tidx = s.host.tidx ∧
    t.host.tdata = s.host.tdata ∧ t.host.latch = s.host.latch ∧ t.host.port = s.host.port
  reports : t.host.reports =
    postAll (claimant ++ abandonedReports .withdrawal s ++ [reportOf (.leftLink cause s.station) s.number s]) s.host.reports
  kept : t.number = s.number ∧ t.pins = s.pins ∧ t.pending = s.pending
  now : t.now = { s.now with waiting := [], left := t.now.left } ∧
    (s.station = .offline → t.now.left = s.now.left) ∧
    (s.station ≠ .offline → ∃ b : Leaving, t.now.left = some b ∧ b.station = s.station ∧ b.tables = s.tables)
  released : trpnDriven t = false ∧ ltxDominant t = false

/-- RESULT after a withdrawal that no host command asked for: kept, but for a CLEAR in its settle, which ends REFUSED_STATE
(R89, R173). -/
def resultKept (s t : State) : Prop :=
  t.host.lastCommand = s.host.lastCommand ∧
    (if s.trip.settling then t.host.result = .refusedState
      else t.host.result = s.host.result ∧ t.host.detail = s.host.detail)

/-- State `t` is what a trip entry leaves of state `s` (R136, R137, R140): the effects of the table of R136, the record, the
reports, TRPn pulled low exactly under a row with the drive flag, and all that a trip entry keeps. RESULT and the last command are
left to the caller. -/
structure TrippedBy (cause : Cause) (drive : Bool) (subject : StationNo) (kind : Option MismatchKind) (s t : State) :
    Prop where
  station : t.station = .tripped
  trip : t.trip = { s.trip with
    first := some cause, causes := causeBit cause, entry := s.link.cycle, drive := drive, settling := false, settled := 0 }
  outputs : t.gate = Gate.off ∧ t.carrier = Carrier.stopped ∧ t.setpoint = SetpointUnit.empty
  change : t.change = { s.change with slot := Slot.vacant, view := 0, profile := 0 }
  roster : t.roster = { s.roster with lost := 0 }
  reports : t.host.reports =
    postAll (reportOf (.tripped cause drive s.station kind) subject s :: abandonedReports .trip s) s.host.reports
  kept : t.link = s.link ∧ t.tables = s.tables ∧ t.acq = s.acq ∧ t.number = s.number ∧ t.pins = s.pins ∧
    t.pending = s.pending ∧ t.host = { s.host with
      reports := t.host.reports, result := t.host.result, detail := t.host.detail, lastCommand := t.host.lastCommand }
  now : t.now = { s.now with entered := true }
  line : s.pins.rstn = true → (trpnDriven t = true ↔ drive = true)

/-! ## What a frame and a mark bring to the Change Unit -/

/-- A frame that a station takes as valid in its window, sent by another station (R14, R15, R27). -/
structure ValidInWindow (f : Frame) (s : State) : Prop where
  onLink : onLink s = true
  other : f.sender ≠ s.number
  below : f.sender.val < stationCount s
  waiting : s.link.rx = .waiting
  code : f.linkCode = s.tables.link.linkCode
  wellFormed : malformed s.tables.link.count f = false

/-- A frame of a RUNNING or JOINED station of the own group that raises neither a loss nor a mismatch (R38, R41). -/
structure Quiet (f : Frame) (s : State) : Prop where
  sender : f.state = .running ∨ f.state = .joined
  group : f.group = s.tables.link.group
  inGroup : inGroup s = true
  agrees : f.state = .running → s.station = .running →
    member f.sender s.change.view = true ∧ f.set = s.change.view ∧ f.profile = s.change.profile
  outside : f.state = .joined → member f.sender s.change.view = false

/-- The state in which the optional part of such a frame reaches the Change Unit (R14, R28, R29, R33, R38): the entry, the lost set,
the tally and, under a RUNNING sender, the collection brought up to date, and PEER_PRESENT posted where the sender was not
PRESENT. -/
def heard (f : Frame) (s : State) : State :=
  let before := s.roster.entries[f.sender]
  { s with
    link := { s.link with rx := .handedOver, tally := s.link.tally ++ [f.cycle] }
    roster := { s.roster with
      entries := s.roster.entries.set f.sender.val (entryFrom f), lost := remove f.sender s.roster.lost }
    change := { s.change with
      collection := if f.state = .running then s.change.collection ++ [(f.set, f.profile)] else s.change.collection }
    host := { s.host with
      reports :=
        if before.presence = .present then s.host.reports
        else arrive s.host.reports (reportOf (.peerPresent f.state f.group (before.presence == .absent)) f.sender s) } }

/-- The state in which a mark accepted on the link reaches the mark event (R6, R7, R10, R11, R18, R35): the intervals counted, the
timer restarted, the new cycle numbered and the mismatch flag clear. -/
def numbered (start : Nat) (s : State) : State :=
  let s := agreeNumber (markRestart { s with
    carrier := { s.carrier with setThisTick := false }, link := { s.link with shorts := shortsAfter s start } })
  { s with roster := { s.roster with mismatch := false } }

/-! ## A whole frame at the receiver -/

/-- The receiver run over consecutive bit times of a window, from the sample before them and the window offset of the first
(R3, R14): the phase and the bytes it ends with, and the last event other than nothing. -/
def receiveBits : List Bool → Bool → Nat → RxPhase → List Byte → RxEvent → RxPhase × List Byte × RxEvent
  | [], _, _, phase, bytes, last => (phase, bytes, last)
  | b :: rest, previous, offset, phase, bytes, last =>
    let r := rxAfter b previous offset phase bytes
    receiveBits rest b (offset + 1) r.1 r.2.1 (if r.2.2 = .nothing then last else r.2.2)

/-! ## Runs -/

/-- A command that a host port, a line or a clock can bring: every one but the two of the RSTn pin. -/
def notReset (c : Instr) : Prop := c ≠ .rstnLow ∧ ∀ ids, c ≠ .powerOn ids

end Sys2Proof.Machine
end

