-- ==== Sys2Proof/WellFormed.lean ====
section
/-! DEFINITION. Which command terms a G316 can be given: the operand ranges that hold whatever the state is. -/

namespace Sys2Proof

/-- The operand ranges of the commands: an unknown command has a code from 0x0E (R162), a mark begins at a value the cycle
timer takes, at most 16382 (R6), an assembled frame has one byte at least and sixteen at most (R3, R20), and a carrier position
is below the longest period, 131056 ticks (R93). Every other operand is in range by its type. -/
def Instr.wellFormed : Instr → Bool
  | .unknownCommand code => decide (0x0E#8 ≤ code)
  | .markAccepted start => decide (start ≤ 16382)
  | .frameReceived _ bytes => decide (1 ≤ bytes.length ∧ bytes.length ≤ 16)
  | .compareCrossing position => decide (position < 131056)
  | .powerOn _ | .nop | .join | .leave | .restart | .propose | .hold | .release | .clear | .stop | .push | .flush | .tread
  | .twrite | .recallResult | .registerWrite _ _ | .reportRead | .timerReachesL _ | .deferredMarkStart | .markDriveEnd
  | .lineDisturbance _ | .markTimeout | .loneStart | .ownWindowStart | .windowEnd _ | .loadPoint _ | .deadTimeElapsed _ _
  | .filteredLevelChange _ | .clearSample _ | .rstnLow | .receptionError _ | .readbackMismatch => true

end Sys2Proof
end

