-- ==== Sys2Proof/Certificates/Slice0/Obligations.lean ====
section
/-! DEFINITION. The statements for the provers, each with the rules of spec/ that it formalises. Hypotheses are on the state and
the operands alone; `s.pins.rstn = true` says that RSTn is high. -/

open Sys2Proof Sys2Proof.Machine

/-! ## The machine as a whole -/

/-- A step with a command at the front of the queue is that command's meaning on the state with the rest of the queue. -/
def Obligations.StepRunsFrontCommand : Prop :=
  ∀ (c : Instr) (rest : List Instr) (s : State), s.pending = c :: rest → step s = exec c { s with pending := rest }

/-- A step on an empty queue is one tick, the model's choice of log entry 1. With RSTn low it changes nothing (log entry 9). What
has waited for the other events of the last tick is taken first, one a step (log entry 32). Then, part by part: the gate pins show
what the last tick has left (R110; log entry 29), and the SPI port takes its levels (log entry 35); a running carrier advances,
and signals a load point but where a backward correction has it run again, except where a mark is accepted in the tick (R95,
R100); the wait of a pending gate grows by one and falls due at the dead time (R112); the filters count their runs, due from 4f +
1 (R132); a settle takes its sample at 40 (R144). The bit engine stands still in OFFLINE. In the middle of a bit time it takes the
sample, and a difference from the bit being sent falls due (R1, R13). At the end of a bit time, or at a transition that cuts a
sampled one short, timer, elapsed count, run, own mark and own frame move on by one: a run is judged at its twelfth (R8), the own
mark ends at twelve dominant ones (R7), the own frame begins at window offset 8 (R12), the receiver takes the sample (R3, R14),
and the windows, the own window, the timeout and the lone start fall due, that one on a line recessive then (R5, R6, R84; log
entry 36). At L the own mark begins with the bit time where the line is recessive then and was sampled so before; otherwise its
sample decides, and a deferred mark begins at a recessive sample (R7; log entry 11: DEDUCED). A transition before the sample drops
the bit time, and its own frame bit is sent anew (log entry 38); one in the tick of the sample drops or counts it (log entry 33).
What falls due goes into the queue, in an order that is open (log entry 2). -/
def Obligations.IdleStepIsOneTick : Prop :=
  ∀ s : State, s.pending = [] → (s.pins.rstn = false → step s = .next s) ∧
    (∀ (p : Postponed) (rest : List Postponed), s.pins.rstn = true → s.now.waiting = p :: rest →
      let u : State := { s with now := { s.now with waiting := rest } }
      step s = .next (match p with
        | .cause r => takeCause r.cause r.subject r.kind u
        | .content f => if fromPeer f u then takeContent f u else u)) ∧
    (s.pins.rstn = true → s.now.waiting = [] → ∃ t : State, step s = .next t ∧ t = tick s ∧
      (t.station = s.station ∧ t.number = s.number ∧ t.acq = { s.acq with elapsed := t.acq.elapsed } ∧
        t.link = { s.link with timer := t.link.timer, rxBuffer := t.link.rxBuffer, bits := t.link.bits } ∧
        t.roster = s.roster ∧ t.change = s.change ∧ t.setpoint = s.setpoint ∧ t.tables = s.tables ∧
        t.host = { s.host with port := t.host.port } ∧ t.pins = s.pins ∧
        t.trip = { s.trip with faults := t.trip.faults, tripLine := t.trip.tripLine, settled := t.trip.settled } ∧
        t.gate = { s.gate with legs := t.gate.legs } ∧
        t.now = { shown := pinLevels s, entered := false, arrived := false, waiting := [], left := none }) ∧
      let marked : Prop := ∃ start, Instr.markAccepted start ∈ t.pending
      let advances : Prop := s.carrier.running = true ∧ ¬marked
      let next := nextPosition s.carrier.period s.carrier.position
      let loads (p : LoadPosition) : Prop := s.carrier.rerun = 0 ∧ settingHas s.carrier.loadSetting p = true ∧
        (match p with | .valley => next = 0 | .peak => next ≠ 0 ∧ next = s.carrier.period / 2)
      ((advances → t.carrier = { s.carrier with
          position := next, setThisTick := false, rerun := s.carrier.rerun - 1 }) ∧
        (¬advances → t.carrier = s.carrier) ∧
        (∀ p, Instr.loadPoint p ∈ t.pending ↔ advances ∧ loads p) ∧
        (∀ a, Instr.compareCrossing a ∈ t.pending ↔ advances ∧ (∀ p, ¬loads p) ∧ a = next ∧
          ∃ leg, demand (s.gate.legs.get leg).mode (s.gate.legs.get leg).compare (carrierNow s) ≠
            demand (s.gate.legs.get leg).mode (s.gate.legs.get leg).compare (carrierNow t))) ∧
      (∀ leg, let l := s.gate.legs.get leg
        t.gate.legs.get leg = (if l.pending = none then l else { l with count := l.count + 1 }) ∧
        ∀ side, Instr.deadTimeElapsed leg side ∈ t.pending ↔ l.pending = some side ∧ s.gate.deadTime ≤ l.count + 1) ∧
      (let counted (level : Bool) (f : Filter) : Filter := { f with run := if level = f.asserted then 0 else f.run + 1 }
        let length := 4 * s.tables.link.faultFilter + 1
        (∀ i : Fin 4, t.trip.faults[i] = counted s.pins.faults[i] s.trip.faults[i] ∧
          (Instr.filteredLevelChange (.flt i) ∈ t.pending ↔ length ≤ t.trip.faults[i].run)) ∧
        t.trip.tripLine = counted (trpnLow s) s.trip.tripLine ∧
        (Instr.filteredLevelChange .trpn ∈ t.pending ↔ length ≤ t.trip.tripLine.run)) ∧
      (t.trip.settled = (if s.trip.settling then s.trip.settled + 1 else s.trip.settled) ∧
        ∀ low, Instr.clearSample low ∈ t.pending ↔ s.trip.settling = true ∧ s.trip.settled + 1 = 40 ∧ low = trpnLow s) ∧
      let b := s.link.bits
      let e := t.link.bits
      let ticks := ticksOf s.tables.link.divisor
      let line := lrxDominant s
      let last : Prop := b.phase + 1 = ticks
      let begins : Prop := ¬last ∧ line = true ∧ b.level = false
      let still : Prop := t.link.timer = s.link.timer ∧ t.link.rxBuffer = s.link.rxBuffer ∧ t.acq = s.acq ∧ e.run = b.run ∧
        e.driven = b.driven ∧ e.txBits = b.txBits ∧ e.sending = b.sending ∧ e.rx = b.rx ∧ ¬marked ∧
        (∀ c ∈ t.pending, ∀ k bytes, c ≠ .windowEnd k ∧ c ≠ .frameReceived k bytes ∧ c ≠ .receptionError k ∧
          c ≠ .lineDisturbance k ∧ c ≠ .ownWindowStart ∧ c ≠ .markDriveEnd ∧ c ≠ .markTimeout ∧ c ≠ .loneStart)
      -- what a sample of this level brings, and what no sample brings
      let sampled (level : Bool) : Prop :=
        (∀ d, Instr.timerReachesL d ∈ t.pending ↔
          onLink s = true ∧ s.link.mark = .quiet ∧ s.link.timer = cycleLength s ∧ d = level) ∧
        (Instr.deferredMarkStart ∈ t.pending ↔ onLink s = true ∧ s.link.mark = .deferred ∧ level = false) ∧
        (Instr.readbackMismatch ∈ t.pending ↔ b.sending = true ∧ b.txBits.headD false ≠ level)
      let unsampled : Prop := Instr.deferredMarkStart ∉ t.pending ∧ Instr.readbackMismatch ∉ t.pending
      (s.station = .offline → t.link = s.link ∧ t.acq = s.acq ∧ ¬marked) ∧
      (s.station ≠ .offline → e.level = lrxDominant t) ∧
      (s.station ≠ .offline → last ∨ begins ∧ b.sampled = true →
        (t.link.timer = (if timerRuns s then s.link.timer + 1 else s.link.timer) ∧ e.phase = 0 ∧ e.sampled = false ∧
          e.previous = b.sample ∧
          t.acq.elapsed = (if s.station = .listening ∧ s.acq.phase = .seek then min (4 * cycleLength s) (s.acq.elapsed + 1)
            else s.acq.elapsed) ∧
          unsampled) ∧
        ((b.sample = false → e.run = .between) ∧
          (b.sample = true → b.run = .between → e.run = .counting s.link.timer 1) ∧
          (b.sample = true → ∀ start n, b.run = .counting start n →
            e.run = if n = 11 then .passed else .counting start (n + 1)) ∧
          (∀ start, Instr.markAccepted start ∈ t.pending ↔
            b.sample = true ∧ b.run = .counting start 11 ∧ runKind s start = .mark) ∧
          (∀ k : StationNo, Instr.lineDisturbance k ∈ t.pending ↔ onLink s = true ∧ b.sample = true ∧
            ∃ start, b.run = .counting start 11 ∧ 16 ≤ start ∧ start < tailStart s ∧ (start - 16) / 176 = k.val)) ∧
        (e.driven = (if s.link.mark = .driving then (if b.sample then b.driven + 1 else b.driven) else 0) ∧
          (Instr.markDriveEnd ∈ t.pending ↔ e.driven = 12)) ∧
        ((b.sending = true → e.txBits = b.txBits.tail ∧ (e.sending = true ↔ b.txBits.tail ≠ [])) ∧
          (b.sending = false → e.txBits = b.txBits ∧ (e.sending = true ↔
            onLink s = true ∧ b.txBits ≠ [] ∧ t.link.timer = 16 + 176 * s.number.val + 8))) ∧
        (¬marked → (∀ k, Instr.windowEnd k ∈ t.pending ↔
            receiving s = true ∧ k.val < stationCount s ∧ s.link.timer + 1 = 16 + 176 * (k.val + 1)) ∧
          (Instr.ownWindowStart ∈ t.pending ↔ onLink s = true ∧ s.link.timer + 1 = 16 + 176 * s.number.val) ∧
          (∀ d, Instr.timerReachesL d ∈ t.pending ↔ onLink s = true ∧ s.link.mark = .quiet ∧
            s.link.timer + 1 = cycleLength s ∧ lrxDominant t = false ∧ b.sample = false ∧ d = false) ∧
          (Instr.markTimeout ∈ t.pending ↔ timerRuns s = true ∧ s.link.timer + 1 = 2 * cycleLength s) ∧
          (Instr.loneStart ∈ t.pending ↔ s.station = .listening ∧ s.acq.phase = .seek ∧
            4 * cycleLength s ≤ s.acq.elapsed + 1 ∧ lrxDominant t = false) ∧
          (∀ k : StationNo,
            let here : Prop := receiving s = true ∧ windowAt s s.link.timer = some k
            let offset := s.link.timer - windowStart k
            (Instr.receptionError k ∈ t.pending ↔ here ∧
              (b.rx = .hunt ∧ b.sample = true ∧ b.previous = false ∧ ¬(4 ≤ offset ∧ offset ≤ 12) ∨
                b.sample = true ∧ (∃ bits, b.rx = .stop bits) ∨ b.sample = false ∧ b.rx = .gap 2)) ∧
            (∀ bytes, Instr.frameReceived k bytes ∈ t.pending ↔ here ∧ b.sample = false ∧
              ∃ bits, b.rx = .stop bits ∧ bytes = s.link.rxBuffer ++ [byteOf bits] ∧
                (match frameLength (bytes.headD 0) with | none => True | some n => n ≤ bytes.length)) ∧
            (here → let r := rxAfter b.sample b.previous offset b.rx s.link.rxBuffer
              e.rx = r.1 ∧ t.link.rxBuffer = r.2.1)))) ∧
      (s.station ≠ .offline → begins → b.sampled = false → b.phase + 1 ≠ ticks / 2 →
        still ∧ e.phase = 0 ∧ e.sampled = false ∧ unsampled ∧ ∀ d, Instr.timerReachesL d ∉ t.pending) ∧
      (s.station ≠ .offline → begins → b.sampled = false → b.phase + 1 = ticks / 2 → e.phase = 0 ∧ e.sampled = false ∧
        (still ∧ unsampled ∧ (∀ d, Instr.timerReachesL d ∉ t.pending) ∨
          t.link.timer = (if timerRuns s then s.link.timer + 1 else s.link.timer) ∧ e.previous = true ∧ sampled true)) ∧
      (s.station ≠ .offline → ¬last → ¬begins →
        let due : Prop := b.phase + 1 = ticks / 2 ∧ b.sampled = false
        still ∧ e.phase = b.phase + 1 ∧ (due → e.sampled = true ∧ e.sample = line ∧ sampled line) ∧
        (¬due → e.sampled = b.sampled ∧ e.sample = b.sample ∧ unsampled ∧ ∀ d, Instr.timerReachesL d ∉ t.pending)))

/-- The RSTn pin (R91, R153, R173). POWER_ON: the number is sampled from ID0 to ID3, ID0 the least significant digit, every
block is at its power-on state, the outputs are at their reset levels, and the next proposals start at sequence 0. RSTN_LOW: the
six gate pins are low, LTX and TRPn are released and IRQn is high. That the blocks keep their state until POWER_ON, and that no
other command has an effect meanwhile, is the model's reading (log entry 9). -/
def Obligations.ResetPinSetsAndReleases : Prop :=
  (∀ (ids : IdPins) (s : State), ∃ t : State, exec (.powerOn ids) s = .next t ∧
    t.number.val = ids.id0.toNat + 2 * ids.id1.toNat + 4 * ids.id2.toNat + 8 * ids.id3.toNat ∧
    t.station = .offline ∧ t.acq = Acquisition.start ∧ t.link = Link.rest 0 ∧ t.roster = Roster.empty ∧
    t.change = ChangeUnit.empty 0 ∧ t.carrier = Carrier.stopped ∧ t.gate = Gate.off ∧ t.setpoint = SetpointUnit.empty ∧
    t.trip = TripUnit.empty ∧ t.tables = Tables.default ∧ t.host = HostPort.default ∧
    t.pins = { s.pins with rstn := true, ids := ids } ∧ t.pending = s.pending ∧
    (∀ (leg : Leg) (side : Side), gatePin t leg side = false) ∧
    ltxDominant t = false ∧ trpnDriven t = false ∧ irqnLow t = false) ∧
  (∀ s : State, ∃ t : State, exec .rstnLow s = .next t ∧ t = { s with pins := { s.pins with rstn := false } } ∧
    (∀ (leg : Leg) (side : Side), gatePin t leg side = false) ∧
    ltxDominant t = false ∧ trpnDriven t = false ∧ irqnLow t = false ∧
    ∀ c : Instr, c.wellFormed = true → (∀ ids, c ≠ .powerOn ids) → exec c t = .next t)

/-- The laws of the device hold right after reset (R91; the values of State.reset that log entry 6 names play no part). -/
def Obligations.ResetKeepsTheLaws : Prop :=
  QueuesBounded State.reset ∧ OutputLaw State.reset ∧ ViewLaw State.reset ∧ RecordLaw State.reset ∧ TableLaw State.reset ∧
    FrameLaw State.reset

/-- Every step keeps the bounds of the report queue and of the setpoint queue (R119, R169), and the law of the trip record: outside
TRIPPED it is clear and the line is not driven (R131, R140). -/
def Obligations.StepKeepsBoundsAndRecord : Prop :=
  (∀ s t : State, QueuesBounded s → step s = .next t → QueuesBounded t) ∧
  (∀ s t : State, RecordLaw s → step s = .next t → RecordLaw t)

/-- Every step keeps the law of the outputs: no leg has both gates on, and outside RUNNING all six gates are off and the carrier
is stopped (R93, R112, R116). -/
def Obligations.StepKeepsOutputLaw : Prop :=
  ∀ s t : State, OutputLaw s → step s = .next t → OutputLaw t

/-- Every step keeps the law of the view: a station is RUNNING exactly when it is a member of its own view, and its live profile
is 0 exactly when the view is empty (R38, R46, R47). -/
def Obligations.StepKeepsViewLaw : Prop :=
  ∀ s t : State, ViewLaw s → step s = .next t → ViewLaw t

/-- Every step keeps the law of the tables, given the law of the outputs: entries in range, the freeze outside OFFLINE, the starve
count at or below its limit (R125, R134, R150 to R156). -/
def Obligations.StepKeepsTableLaw : Prop :=
  ∀ s t : State, OutputLaw s → TableLaw s → step s = .next t → TableLaw t

/-- Every step keeps the law of what a station sends, given the laws of the outputs, the tables and the view (R22, R36, R49). -/
def Obligations.StepKeepsFrameLaw : Prop :=
  ∀ s t : State, OutputLaw s → TableLaw s → ViewLaw s → FrameLaw s → step s = .next t → FrameLaw t

/-- What only these commands do. Only a TWRITE, by its own command or by its code in COMMAND, and POWER_ON change a table entry, and
only POWER_ON changes the station number (R149, R150, R153). OFFLINE is left by JOIN alone, by its own command or by its code in
COMMAND (R76, R77). While a station stays RUNNING, only an accepted mark changes its view and its live profile (R47). -/
def Obligations.OnlyTheseCommandsChange : Prop :=
  ∀ (c : Instr) (s t : State), exec c s = .next t → (∀ ids, c ≠ .powerOn ids) →
    t.number = s.number ∧
    (c ≠ .twrite → c ≠ .registerWrite 0x03 0x0C →
      { t.tables with frozen := false } = { s.tables with frozen := false }) ∧
    (s.station = .offline → t.station ≠ .offline →
      (c = .join ∨ c = .registerWrite 0x03 0x01) ∧ t.station = .listening) ∧
    (s.station = .running → t.station = .running → (∀ start, c ≠ .markAccepted start) →
      t.change.view = s.change.view ∧ t.change.profile = s.change.profile)

/-! ## Host port: registers, commands, reports -/

/-- REGISTER_WRITE (R161, R162): a write of a code to COMMAND issues the command with that code, for all 256 codes; ARG0-ARG7, TSEL,
TIDX and TDATA0-TDATA7 hold the byte and read it back; a write to a read-only register or past the window is discarded. And what a
read of the read-only registers gives: IDENT, STATUS, RESULT, CYCLE, VIEW and TRIPREC, with nothing past the window. -/
def Obligations.RegisterWriteStoresOrIssues : Prop :=
  (∀ (code : Byte) (s : State), exec (.registerWrite 0x03 code) s = exec (commandOf code) s) ∧
  (∀ s : State,
    let one (b : Bool) : Nat := if b then 1 else 0
    let state : Nat := match s.station with
      | .offline => 0 | .listening => 1 | .joined => 2 | .running => 3 | .tripped => 4
    let slot : Nat := match s.change.slot.state with | .vacant => 0 | .pending => 1 | .opened => 2 | .agreed => 3
    let fault (i : Fin 4) : Nat := one s.trip.faults[i].asserted
    let bytes (address : BitVec 7) : List Nat := (registerBytes s address).map (·.toNat)
    bytes 0x00 = [0x63, 1] ∧
    bytes 0x01 = [state + 8 * slot + 32 * one s.change.hold + 64 * one (trpnLow s) + 128 * one s.trip.settling,
      fault 0 + 2 * fault 1 + 4 * fault 2 + 8 * fault 3 + 16 * (s.setpoint.queue.length % 8),
      s.host.reports.length % 32] ∧
    bytes 0x02 = [(resultByte s.host.result).toNat, s.host.detail.toNat] ∧
    bytes 0x03 = [s.host.lastCommand.toNat] ∧
    bytes 0x17 = [s.link.cycle.toNat % 256, s.link.cycle.toNat / 256] ∧
    bytes 0x18 = [s.change.view.toNat % 256, s.change.view.toNat / 256, s.change.profile.toNat] ∧
    bytes 0x19 = [s.trip.causes.toNat % 256, s.trip.causes.toNat / 256 + 2 * one s.trip.drive +
      16 * (match s.trip.first with | none => 15 | some c => (causeIndex c).val),
      s.trip.entry.toNat % 256, s.trip.entry.toNat / 256] ∧
    ∀ address : BitVec 7, 0x1A ≤ address → bytes address = []) ∧
  ∀ (address : BitVec 7) (value : Byte) (s : State), s.pins.rstn = true →
    (∀ i : Fin 8, address = BitVec.ofNat 7 (0x04 + i.val) →
      exec (.registerWrite address value) s = .next { s with host := { s.host with args := s.host.args.set i.val value } }) ∧
    (address = 0x0C → exec (.registerWrite address value) s = .next { s with host := { s.host with tsel := value } }) ∧
    (address = 0x0D → exec (.registerWrite address value) s = .next { s with host := { s.host with tidx := value } }) ∧
    (∀ i : Fin 8, address = BitVec.ofNat 7 (0x0E + i.val) →
      exec (.registerWrite address value) s =
        .next { s with host := { s.host with tdata := s.host.tdata.set i.val value } }) ∧
    (0x04 ≤ address → address ≤ 0x15 →
      ∃ t : State, exec (.registerWrite address value) s = .next t ∧ registerBytes t address = [value]) ∧
    (address < 0x03 ∨ 0x16 ≤ address → exec (.registerWrite address value) s = .next s)

/-- NOP, HOLD, RELEASE and RECALL (R73, R165): their results and effects in every station state, and nothing else. UNKNOWN_COMMAND
(R162): a code from 0x0E is refused REFUSED_UNKNOWN with the code as detail, and nothing else changes but the last command; a term
with a lower code is no command and stops by name, the model's own check (log entry 26). -/
def Obligations.PlainHostCommands : Prop :=
  (∀ s : State, s.pins.rstn = true →
    exec .nop s = .next { s with host := { s.host with lastCommand := 0x00, result := .done, detail := 0 } } ∧
    (s.station = .offline →
      exec .hold s = .next { s with host := { s.host with lastCommand := 0x05, result := .refusedState, detail := 0 } } ∧
      exec .release s = .next { s with host := { s.host with lastCommand := 0x06, result := .refusedState, detail := 0 } }) ∧
    (s.station ≠ .offline →
      exec .hold s = .next { s with
        host := { s.host with lastCommand := 0x05, result := .done, detail := if s.change.hold then 1 else 0 }
        change := { s.change with hold := true } } ∧
      exec .release s = .next { s with
        host := { s.host with lastCommand := 0x06, result := .done, detail := if s.change.hold then 1 else 0 }
        change := { s.change with hold := false } }) ∧
    exec .recallResult s = .next { s with host := { s.host with
      args := #v[resultByte s.host.result, s.host.detail, s.host.lastCommand, s.host.args[3], s.host.args[4],
        s.host.args[5], s.host.args[6], s.host.args[7]] } }) ∧
  ∀ (code : Byte) (s : State),
    (0x0E#8 ≤ code → s.pins.rstn = true →
      exec (.unknownCommand code) s =
        .next { s with host := { s.host with lastCommand := code, result := .refusedUnknown, detail := code } }) ∧
    (code < 0x0E#8 → exec (.unknownCommand code) s = .fault (.notACommand code))

/-- Reads (R160, R170, R171, R172). REPORT_READ returns the oldest entry and removes it, and with the queue empty eight bytes of
0; where the port has latched an entry at its byte 0, it returns that one and removes the head, and where the port had found the
queue empty it returns the zeros and removes nothing, whatever has been posted since. IRQn is low exactly while an entry is left.
The SPI port, tick by tick (log entry 35): with CSn high SDO is at high impedance and a byte in progress is discarded; the eighth
rising edge of the command byte gives direction and address, that of a write's data byte writes it or issues its command, and that
of REPORT's eighth byte completes the read; a data byte is followed by the next byte of its register, by the next register after
its last byte, or by REPORT again, and past the window by no register; the falling edge before a register's first byte latches it,
and SDO shows its bits, most significant first. And the bytes of every kind of report; that the sequence bits of CHANGE_CLOSED are
0 while the sequence is unassigned is the model's choice (log entry 28). -/
def Obligations.ReportReadPopsOldest : Prop :=
  (∀ s : State, s.pins.rstn = true →
    (∀ (r : Report) (rest : List Report), s.host.port.entry = none → s.host.reports = r :: rest →
      ∃ t : State, exec .reportRead s = .next t ∧
        t = { s with host := { s.host with latch := reportBytes r, reports := rest } } ∧
        (irqnLow t = true ↔ rest ≠ [])) ∧
    (s.host.port.entry = none → s.host.reports = [] →
      exec .reportRead s = .next { s with host := { s.host with latch := Vector.replicate 8 0 } }) ∧
    (∀ (bytes : Vector Byte 8) (stored : Bool), s.host.port.entry = some (bytes, stored) →
      exec .reportRead s = .next { s with host := { s.host with
        latch := bytes, port := { s.host.port with entry := none }
        reports := if stored then s.host.reports.tail else s.host.reports } })) ∧
  (∀ s : State, s.pins.rstn = true → s.pending = [] → s.now.waiting = [] →
    let p := s.host.port
    let value : Byte := p.shift * 2 + (if s.pins.sdi then 1 else 0)
    let size (a : BitVec 7) : Nat := match a.toNat with
      | 0x00 => 2 | 0x01 => 3 | 0x02 => 2 | 0x16 => 8 | 0x17 => 2 | 0x18 => 3 | 0x19 => 4 | _ => 1
    (s.pins.csn = true → sdo s = none ∧ (tick s).host.port = { SpiPort.rest with clock := s.pins.sck }) ∧
    (s.pins.csn = false → p.selected = true → p.clock = false → s.pins.sck = true →
      (p.count < 7 → (tick s).host.port = { p with clock := true, count := p.count + 1, shift := value }) ∧
      (p.count = 7 → (tick s).host.port.count = 0 ∧ sdo (tick s) = some p.out ∧
        (p.transfer = .command → (tick s).host.port.transfer =
          if value.getLsbD 7 then .read (value.setWidth 7) 0 else .write (value.setWidth 7) 0) ∧
        (∀ o, p.transfer = .write 0x03 o → commandOf value ∈ (tick s).pending) ∧
        (∀ a o, a ≠ 0x03 → p.transfer = .write a o → Instr.registerWrite a value ∈ (tick s).pending) ∧
        (∀ o, p.transfer = .read 0x16 o → (Instr.reportRead ∈ (tick s).pending ↔ o = 7)) ∧
        ∀ (a : BitVec 7) (o : Nat) (data : BitVec 7 → Nat → Transfer), data = .read ∨ data = .write → p.transfer = data a o →
          (a ≤ 0x19 → (tick s).host.port.transfer =
            if o + 1 < size a then data a (o + 1) else if a = 0x16 then data a 0 else data (a + 1) 0) ∧
          (0x1A ≤ a → ∃ a' o', 0x1A ≤ a' ∧ (tick s).host.port.transfer = data a' o'))) ∧
    (s.pins.csn = false → p.selected = true → p.clock = true → s.pins.sck = false → p.count < 8 →
      (p.transfer = .command → sdo (tick s) = some false) ∧
      (∀ a, p.transfer = .read a 0 → p.count = 0 →
        (tick s).host.port.latched = registerBytes s a ∧
        sdo (tick s) = some (((registerBytes s a).getD 0 0).getLsbD 7) ∧
        (a = 0x16 → (tick s).host.port.entry = some (reportWindow s, !s.host.reports.isEmpty))) ∧
      (∀ a o, p.transfer = .read a o → 0 < p.count ∨ 0 < o →
        (tick s).host.port.latched = p.latched ∧ (tick s).host.port.entry = p.entry ∧
        sdo (tick s) = some ((p.latched.getD o 0).getLsbD (7 - p.count))))) ∧
  ∀ r : Report,
    let flag (b : Bool) : Nat := if b then 1 else 0
    let slot (sequence : Nat) (remote automatic : Bool) : Nat := sequence + 32 * flag remote + 64 * flag automatic
    let index (c : Option Cause) : Nat := c.elim 15 fun c => (causeIndex c).val
    let kindCode (k : Option MismatchKind) : Nat := match k with | none => 0 | some .outsider => 1 | some .pair => 2
    let verdictNumber (v : Option Verdict) : Nat := match v with
      | none => 7 | some .accept => 0 | some .late => 1 | some .profile => 2 | some .held => 3 | some .basis => 4 | some .member => 5
    let state (st : StationState) : Nat := match st with
      | .offline => 0 | .listening => 1 | .joined => 2 | .running => 3 | .tripped => 4
    let advertised (st : AdvState) : Nat := match st with | .joined => 1 | .running => 2 | .tripped => 3
    let left (c : WithdrawalCause) : Nat := match c with
      | .leave => 1 | .restart => 2 | .linkMismatch => 3 | .windowConflict => 4 | .numberTaken => 5 | .joinAborted => 6
    let mismatch (why : LinkMismatchReason) : Nat := match why with
      | .lockFailed => 1 | .noNumber => 2 | .foreignCode => 3 | .markTimeout => 4 | .shortInterval => 5
    let outcome (o : ChangeOutcome) : Nat := match o with
      | .applied => 1 | .lapsed => 2 | .refused => 3 | .memberLost => 4 | .proposerLost => 5 | .conflict => 6 | .withdrawn => 7
      | .abandoned => 8 | .slipped => 9
    let reason (why : CloseReason) : Nat := match why with
      | .noReason => 0 | .refusal v => verdictNumber (some v) | .notice .absence => 1 | .notice .trip => 2
      | .notice .regroup => 3 | .notice .joined => 4 | .contended => 1 | .trip => 1 | .withdrawal => 2
    let details : List Nat := match r.body with
      | .joinedLink n => [1, n, 0, 0]
      | .linkAlone => [2, 0, 0, 0]
      | .leftLink c st => [3, left c, state st, 0]
      | .joinAborted i => [4, i.val, 0, 0]
      | .numberTaken => [5, 0, 0, 0]
      | .linkMismatch why code st => [6, mismatch why, code.toNat, state st]
      | .windowConflict n st => [7, n, state st, 0]
      | .peerPresent st g absent => [8, advertised st, g.toNat, flag absent]
      | .peerAbsent last m => [9, last.toNat % 256, last.toNat / 256, flag m]
      | .cycleSlip held c => [10, held.toNat % 256, held.toNat / 256, flag c]
      | .cycleDiscord n d => [11, n, d, 0]
      | .viewDiscord n self => [12, n, flag self, 0]
      | .changeOpened n q remote auto v => [13, n, slot q.toNat remote auto, verdictNumber v]
      | .changeClosed o q remote auto why => [14, outcome o,
          slot (q.elim 0 (·.toNat)) remote auto + 128 * flag q.isNone, reason why]
      | .tripped c drive st k => [15, (causeIndex c).val, flag drive + 2 * state st, kindCode k]
      | .tripAdded c drive k => [16, (causeIndex c).val, flag drive, kindCode k]
      | .tripCleared c causes n => [17, index c + 16 * (causes.toNat / 256), causes.toNat % 256, min n 255]
      | .causeSeen c st k => [18, (causeIndex c).val, state st, kindCode k]
      | .staleSetpoint n tag live => [19, n, tag.toNat, live.toNat]
      | .starveBegin live n => [20, live.toNat, n, 0]
      | .patternEnd live start n => [21, live.toNat, start, n]
    (reportBytes r).toList.map (·.toNat) =
      [details.getD 0 0, flag r.gap, r.cycle.toNat % 256, r.cycle.toNat / 256, r.subject.val,
        details.getD 1 0 % 256, details.getD 2 0 % 256, details.getD 3 0 % 256]

/-- The posting of a report (R169): with fewer than 16 entries it is appended with its gap flag clear; with 16 it is lost, and of
the stored entries only the gap flag of the newest changes. -/
def Obligations.PostingAppendsOrMarksGap : Prop :=
  ∀ (body : ReportBody) (subject : StationNo) (s : State),
    (s.host.reports.length < 16 →
      (post body subject s).host.reports =
        s.host.reports ++ [{ body := body, gap := false, cycle := s.link.cycle, subject := subject }]) ∧
    (s.host.reports.length = 16 →
      (post body subject s).host.reports.length = 16 ∧
      ∀ i : Nat, i < 16 → (post body subject s).host.reports[i]? =
        (s.host.reports[i]?).map (fun r => if i = 15 then { r with gap := true } else r)) ∧
    post body subject s = { s with host := { s.host with reports := (post body subject s).host.reports } }

/-- TREAD (R44, R75, R154, R166, R167): the two range refusals, and the entry of each table in the staging registers. In OFFLINE
every ROSTER entry reads UNSEEN, and so does the station's own number. The bytes of every table's entry are spelled out field by
field (R166), the LINK and PROFILE entries for fields in their ranges; that the sequence bits of the slot are 0 while the sequence
is unassigned is the model's choice (log entry 28). -/
def Obligations.TreadStagesOneEntry : Prop :=
  ∀ s : State, s.pins.rstn = true →
    let flag (b : Bool) : Nat := if b then 1 else 0
    let low (w : Word16) : Nat := w.toNat % 256
    let high (w : Word16) : Nat := w.toNat / 256
    let presence (p : Presence) : Nat := match p with | .unseen => 0 | .present => 1 | .absent => 2
    let advertised (st : Option AdvState) : Nat := match st with
      | none => 0 | some .joined => 1 | some .running => 2 | some .tripped => 3
    let mode (m : LegMode) : Nat := match m with | .off => 0 | .switch => 1 | .upperOn => 2 | .lowerOn => 3
    let link (l : LinkTable) : List Nat :=
      [(match l.divisor with | .d4 => 0 | .d8 => 1 | .d16 => 2) + 4 * (match l.count with | .s8 => 0 | .s16 => 1) +
          8 * (match l.polarity with | .activeHigh => 0 | .activeLow => 1) + 16 * flag l.valid,
        l.cycleLength % 256, l.cycleLength / 256, l.lead + 16 * l.missLimit, l.linkCode.toNat,
        l.group.toNat + 16 * s.number.val, l.starveLimit + 16 * l.faultFilter, 0]
    let profile (p : Profile) : List Nat :=
      [flag p.configured + 2 * (match p.ratio with | .n1 => 0 | .n2 => 1 | .n4 => 2) +
          8 * (match p.shape with | .triangle => 0 | .saw => 1) + 16 * flag p.interleave +
          32 * (match p.loadSetting with | .valley => 0 | .peak => 1 | .both => 2) +
          128 * (match p.source with | .queue => 0 | .pattern => 1),
        p.deadTime, flag p.enables.a + 2 * flag p.enables.b + 4 * flag p.enables.c + 8 * flag p.patternRepeat,
        p.patternStart, p.patternLength, 0, 0, 0]
    let cause (r : CauseRow) : List Nat :=
      [(match r.action with | .ignore => 0 | .report => 1 | .respace => 2 | .trip => 3), flag r.drive, 0, 0, 0, 0, 0, 0]
    let pattern (e : PerLeg LegSetting) : List Nat :=
      [mode e.a.mode + 16 * mode e.b.mode, mode e.c.mode, low e.a.compare, high e.a.compare, low e.b.compare,
        high e.b.compare, low e.c.compare, high e.c.compare]
    let roster (e : RosterEntry) : List Nat :=
      [presence e.presence + 4 * advertised e.state + 16 * e.group.toNat, e.profile.toNat + 8 * e.tripClass.toNat,
        low e.set, high e.set, low e.lastHeard, high e.lastHeard, e.misses % 256, 0]
    let slotState (st : SlotState) : Nat := match st with | .vacant => 0 | .pending => 1 | .opened => 2 | .agreed => 3
    let verdict (v : Option Verdict) : Nat := match v with
      | none => 7 | some .accept => 0 | some .late => 1 | some .profile => 2 | some .held => 3 | some .basis => 4 | some .member => 5
    let slot (c : Slot) : List Nat :=
      [slotState c.state + 4 * flag c.remote + 8 * flag c.automatic + 16 * flag c.sequence.isSome + 32 * verdict c.verdict,
        c.proposer.val + 16 * c.sequence.elim 0 (·.toNat), low c.newSet, high c.newSet,
        c.newProfile.toNat + 8 * c.baseProfile.toNat, low c.baseSet, high c.baseSet, low c.electorate, high c.electorate,
        low c.effective, high c.effective, low c.accepts, high c.accepts, low c.firstSeen, high c.firstSeen, 0]
    (5 < s.host.tsel.toNat →
      exec .tread s = .next { s with host := { s.host with lastCommand := 0x0B, result := .refusedRange, detail := 254 } }) ∧
    (∀ count : Nat, (s.host.tsel.toNat, count) ∈ [(0, 1), (1, 8), (2, 9), (3, 64), (4, 16), (5, 1)] →
      count ≤ s.host.tidx.toNat →
      exec .tread s = .next { s with host := { s.host with lastCommand := 0x0B, result := .refusedRange, detail := 255 } }) ∧
    (∀ bytes : Vector Byte 8,
      (s.host.tsel = 0 ∧ s.host.tidx = 0 ∧ linkInRange s.tables.link ∧
        bytes.toList.map (·.toNat) = link s.tables.link) ∨
      (s.host.tsel = 1 ∧ ∃ h : s.host.tidx.toNat < 8, profileInRange s.tables.profiles[s.host.tidx.toNat] ∧
        bytes.toList.map (·.toNat) = profile s.tables.profiles[s.host.tidx.toNat]) ∨
      (s.host.tsel = 2 ∧ ∃ h : s.host.tidx.toNat < 9,
        bytes.toList.map (·.toNat) = cause s.tables.causes[s.host.tidx.toNat]) ∨
      (s.host.tsel = 3 ∧ ∃ h : s.host.tidx.toNat < 64,
        bytes.toList.map (·.toNat) = pattern s.tables.pattern[s.host.tidx.toNat]) ∨
      (s.host.tsel = 4 ∧ ∃ h : s.host.tidx.toNat < 16,
        ((s.host.tidx.toNat = s.number.val ∨ stationCount s ≤ s.host.tidx.toNat ∨ s.station = .offline) ∧
          bytes = Vector.replicate 8 0) ∨
        (s.host.tidx.toNat ≠ s.number.val ∧ s.host.tidx.toNat < stationCount s ∧ s.station ≠ .offline ∧
          bytes.toList.map (·.toNat) = roster s.roster.entries[s.host.tidx.toNat])) →
      exec .tread s =
        .next { s with host := { s.host with lastCommand := 0x0B, result := .done, detail := 0, tdata := bytes } }) ∧
    (s.host.tsel = 5 → s.host.tidx = 0 → ∃ first second : Vector Byte 8,
      (first.toList ++ second.toList).map (·.toNat) = slot s.change.slot ∧
      exec .tread s = .next { s with host := { s.host with
        lastCommand := 0x0B, result := .done, detail := 0, tdata := first, args := second } })

/-- TWRITE of an entry laid out as TREAD lays it out (R151, R152, R155, R156, R157, R166, R168): with the tables unfrozen every
entry in range is stored whole, the LINK entry with its valid flag set, and no other entry changes. A LINK write changes the
filter length at once, so that every filtered level whose run has reached the new length turns over (R132), and the polarity of
the gate pins (R117). -/
def Obligations.TwriteStoresStagedEntry : Prop :=
  ∀ s : State, s.pins.rstn = true → s.tables.frozen = false →
    (∀ l : LinkTable, linkInRange l → s.host.tsel = 0 → s.host.tidx = 0 → s.host.tdata = linkBytes l s.number →
      let settled (f : Filter) : Filter :=
        if 4 * l.faultFilter + 1 ≤ f.run then { asserted := !f.asserted, run := 0 } else f
      ∃ t : State, exec .twrite s = .next t ∧ t.tables = { s.tables with link := { l with valid := true } } ∧
        t.host = { s.host with lastCommand := 0x0C, result := .done, detail := 0 } ∧ t.change = s.change ∧
        t.station = s.station ∧
        t.trip = { s.trip with faults := s.trip.faults.map settled, tripLine := settled s.trip.tripLine } ∧
        t = { s with tables := t.tables, host := t.host, trip := t.trip } ∧
        (s.pending = [] → s.now.waiting = [] → ∀ leg side, gatePin t leg side =
          (match l.polarity with
            | .activeHigh => gateOn (s.gate.legs.get leg) side
            | .activeLow => !gateOn (s.gate.legs.get leg) side))) ∧
    (∀ (p : Profile) (i : Fin 8), profileInRange p → 1 ≤ i.val → s.host.tsel = 1 → s.host.tidx.toNat = i.val →
      s.host.tdata = profileBytes p →
      exec .twrite s = .next { s with
        tables := { s.tables with profiles := s.tables.profiles.set i.val p }
        host := { s.host with lastCommand := 0x0C, result := .done, detail := 0 } }) ∧
    (∀ (r : CauseRow) (i : Fin 9), rowAllowed i r → s.host.tsel = 2 → s.host.tidx.toNat = i.val →
      s.host.tdata = causeBytes r →
      exec .twrite s = .next { s with
        tables := { s.tables with causes := s.tables.causes.set i.val r }
        host := { s.host with lastCommand := 0x0C, result := .done, detail := 0 } }) ∧
    (∀ (e : PerLeg LegSetting) (i : Fin 64), s.host.tsel = 3 → s.host.tidx.toNat = i.val → s.host.tdata = legBytes e →
      exec .twrite s = .next { s with
        tables := { s.tables with pattern := s.tables.pattern.set i.val e }
        host := { s.host with lastCommand := 0x0C, result := .done, detail := 0 } })

/-- A refused TWRITE (R152, R155, R156, R157, R168): a read-only or absent table, an index that cannot be written, the freeze
flag with every table, and the number of the first field out of range of a LINK, PROFILE, CAUSE or PATTERN entry; nothing
changes but RESULT and the last command. -/
def Obligations.TwriteRefusalsInOrder : Prop :=
  ∀ s : State, s.pins.rstn = true →
    let refused (code : ResultCode) (detail : Byte) : Out :=
      .next { s with host := { s.host with lastCommand := 0x0C, result := code, detail := detail } }
    (3 < s.host.tsel.toNat → exec .twrite s = refused .refusedRange 254) ∧
    (s.host.tsel.toNat ≤ 3 →
      (s.host.tsel = 0 ∧ s.host.tidx ≠ 0 ∨ s.host.tsel = 1 ∧ (s.host.tidx = 0 ∨ 7 < s.host.tidx.toNat) ∨
        s.host.tsel = 2 ∧ 8 < s.host.tidx.toNat ∨ s.host.tsel = 3 ∧ 63 < s.host.tidx.toNat) →
      exec .twrite s = refused .refusedRange 255) ∧
    let b := s.host.tdata
    let index := s.host.tidx.toNat
    let link : Prop := s.host.tsel = 0 ∧ index = 0
    let profile : Prop := s.host.tsel = 1 ∧ 1 ≤ index ∧ index ≤ 7
    let cause : Prop := s.host.tsel = 2 ∧ index ≤ 8
    let pattern : Prop := s.host.tsel = 3 ∧ index ≤ 63
    (s.tables.frozen = true → link ∨ profile ∨ cause ∨ pattern → exec .twrite s = refused .refusedFrozen 0) ∧
    (s.tables.frozen = false →
      (link →
        let dCode := (b[0].extractLsb' 0 2).toNat
        let top := if b[0].getLsbD 2 then 2848 else 1440
        let length := b[1].toNat + 256 * b[2].toNat
        let lead := b[3].toNat % 16
        let misses := b[3].toNat / 16 % 8
        (dCode = 3 → exec .twrite s = refused .refusedRange 1) ∧
        (dCode ≠ 3 → (length < top ∨ 8191 < length) → exec .twrite s = refused .refusedRange 3) ∧
        (dCode ≠ 3 → top ≤ length → length ≤ 8191 → lead < 3 → exec .twrite s = refused .refusedRange 4) ∧
        (dCode ≠ 3 → top ≤ length → length ≤ 8191 → 3 ≤ lead → (misses < 1 ∨ 4 < misses) →
          exec .twrite s = refused .refusedRange 5)) ∧
      (profile →
        let ratio := b[0].toNat / 2 % 4
        let loadCode := b[0].toNat / 32 % 4
        let start := b[3].toNat % 64
        let length := b[4].toNat % 128
        (ratio = 3 → exec .twrite s = refused .refusedRange 2) ∧
        (ratio ≠ 3 → b[1] = 0 → exec .twrite s = refused .refusedRange 4) ∧
        (ratio ≠ 3 → b[1] ≠ 0 → loadCode = 3 → exec .twrite s = refused .refusedRange 6) ∧
        (ratio ≠ 3 → b[1] ≠ 0 → loadCode ≠ 3 → (length = 0 ∨ 64 < start + length) →
          exec .twrite s = refused .refusedRange 10)) ∧
      (cause →
        let action := b[0].toNat
        let driven : Prop := b[1].getLsbD 0 = true
        let allowed : Prop := action ≤ 3 ∧ (action = 0 → index ≤ 6) ∧ (action = 1 → index ≤ 7) ∧ (action = 2 → index = 5)
        (¬allowed → exec .twrite s = refused .refusedRange 1) ∧
        (allowed → driven → action ≠ 3 ∨ index = 4 → exec .twrite s = refused .refusedRange 2)) ∧
      (pattern →
        (3 < b[0].toNat % 16 → exec .twrite s = refused .refusedRange 1) ∧
        (b[0].toNat % 16 ≤ 3 → 3 < b[0].toNat / 16 → exec .twrite s = refused .refusedRange 3) ∧
        (b[0].toNat % 16 ≤ 3 → b[0].toNat / 16 ≤ 3 → 3 < b[1].toNat % 16 → exec .twrite s = refused .refusedRange 5)))

/-! ## Station states -/

/-- The cross-checks of JOIN's check 2 (R158): they pass exactly when LINK, every configured profile and every PATTERN entry
played pass; a failing LINK entry gives detail 0, then the lowest failing profile p gives 64 + p, and then the lowest failing
PATTERN entry e gives 192 + e. -/
def Obligations.JoinCrossChecks : Prop :=
  ∀ (t : Tables) (n : StationNo),
    let linkPasses : Prop := t.link.valid = true ∧ 32 + 176 * countOf t.link.count ≤ t.link.cycleLength ∧
      t.link.cycleLength ≤ 8191 ∧ n.val < countOf t.link.count
    let period (p : Profile) : Nat := t.link.cycleLength * ticksOf t.link.divisor / ratioOf p.ratio
    let profilePasses (p : Profile) : Prop := period p % 2 = 0 ∧
      (p.shape = .saw → period p ≤ 65535 ∧ p.loadSetting = .valley) ∧ (p.shape = .triangle → period p / 2 ≤ 65535)
    let top (p : Profile) : Nat := if p.shape = .saw then period p else period p / 2
    let played (p : Profile) (e : Fin 64) : Prop := p.patternStart ≤ e.val ∧ e.val < p.patternStart + p.patternLength
    let entryPasses (p : Profile) (e : Fin 64) : Prop := t.pattern[e].a.compare.toNat ≤ top p ∧
      t.pattern[e].b.compare.toNat ≤ top p ∧ t.pattern[e].c.compare.toNat ≤ top p
    let entryFails (e : Fin 64) : Prop := ∃ i : Fin 8, i ≠ 0 ∧ t.profiles[i].configured = true ∧
      t.profiles[i].source = .pattern ∧ played t.profiles[i] e ∧ ¬entryPasses t.profiles[i] e
    (firstInvalid t n = none ↔
      linkPasses ∧ ∀ i : Fin 8, i ≠ 0 → t.profiles[i].configured = true →
        profilePasses t.profiles[i] ∧
        (t.profiles[i].source = .pattern → ∀ e, played t.profiles[i] e → entryPasses t.profiles[i] e)) ∧
    (¬linkPasses → firstInvalid t n = some 0) ∧
    (∀ i : Fin 8, linkPasses → i ≠ 0 → t.profiles[i].configured = true → ¬profilePasses t.profiles[i] →
      (∀ j : Fin 8, j < i → j ≠ 0 → t.profiles[j].configured = true → profilePasses t.profiles[j]) →
      firstInvalid t n = some (64 + i.val)) ∧
    (∀ e : Fin 64, linkPasses →
      (∀ i : Fin 8, i ≠ 0 → t.profiles[i].configured = true → profilePasses t.profiles[i]) →
      entryFails e → (∀ e' : Fin 64, e' < e → ¬entryFails e') → firstInvalid t n = some (192 + e.val))

/-- JOIN (R78, R79, R80): with its three checks passed the station is LISTENING, the tables are frozen with their content, and the
acquisition record is at its start values; nothing is reported unless an asserted fault input has a REPORT row. A failed check
changes RESULT and the last command alone. The detail of DONE is open (log entry 5), and the bit engine starts anew (log
entry 23). -/
def Obligations.JoinEntersListening : Prop :=
  ∀ s : State, s.pins.rstn = true →
    let refused (code : ResultCode) (detail : Byte) : Out :=
      .next { s with host := { s.host with lastCommand := 0x01, result := code, detail := detail } }
    let blocks (i : Fin 4) : Prop := s.trip.faults[i].asserted = true ∧ (rowOf s.tables (.fault i)).action = .trip
    (s.station ≠ .offline → exec .join s = refused .refusedState (stateDetail s.station)) ∧
    (∀ d : Nat, s.station = .offline → firstInvalid s.tables s.number = some d →
      exec .join s = refused .refusedInvalid (natByte d)) ∧
    (∀ i : Fin 4, s.station = .offline → firstInvalid s.tables s.number = none → blocks i → (∀ j : Fin 4, j < i → ¬blocks j) →
      exec .join s = refused .refusedFaultActive (natByte i.val)) ∧
    (s.station = .offline → firstInvalid s.tables s.number = none → (∀ i : Fin 4, ¬blocks i) →
      ∃ t : State, exec .join s = .next t ∧ t.station = .listening ∧ t.tables = { s.tables with frozen := true } ∧
        t.acq = Acquisition.start ∧ t.host.result = .done ∧ t.host.lastCommand = 0x01 ∧
        t.link = { s.link with bits := t.link.bits } ∧ t.roster = s.roster ∧ t.change = s.change ∧ t.carrier = s.carrier ∧
        t.gate = s.gate ∧ t.setpoint = s.setpoint ∧ t.trip = s.trip ∧ t.number = s.number ∧ t.pins = s.pins ∧
        t.pending = s.pending ∧ t.host.args = s.host.args ∧ t.host.tdata = s.host.tdata ∧
        t.now = { s.now with arrived := false, left := none } ∧
        ((∀ i : Fin 4, s.trip.faults[i].asserted = true → (rowOf s.tables (.fault i)).action ≠ .report) →
          t.host.reports = s.host.reports))

/-- LEAVE (R86, R89): from LISTENING, TRIPPED, and JOINED outside the slot's electorate it withdraws the station and gives DONE;
from JOINED inside it, RUNNING and OFFLINE it is turned away and nothing else changes. The detail bytes are open (log
entry 5). -/
def Obligations.LeaveWithdrawsOrRefuses : Prop :=
  ∀ s : State, s.pins.rstn = true →
    let held : Prop := s.change.slot.state ≠ .vacant ∧ member s.number s.change.slot.electorate = true
    (s.station = .listening ∨ s.station = .tripped ∨ s.station = .joined ∧ ¬held →
      ∃ t : State, exec .leave s = .next t ∧ Withdrawn .leave [] s t ∧ t.host.result = .done ∧ t.host.lastCommand = 0x02) ∧
    (s.station = .offline ∨ s.station = .running →
      ∃ t : State, exec .leave s = .next t ∧ t.host.result = .refusedState ∧
        t = { s with free := t.free, host := { s.host with
          lastCommand := 0x02, result := .refusedState, detail := t.host.detail } }) ∧
    (s.station = .joined → held →
      ∃ t : State, exec .leave s = .next t ∧ t.host.result = .busy ∧
        t = { s with free := t.free, host := { s.host with lastCommand := 0x02, result := .busy, detail := t.host.detail } })

/-- RESTART (R87, R89, R150): in every station state, OFFLINE included, the resets of a withdrawal are made, LEFT_LINK is posted
with the state left, and the result is DONE. -/
def Obligations.RestartWithdrawsFromEveryState : Prop :=
  ∀ s : State, s.pins.rstn = true →
    ∃ t : State, exec .restart s = .next t ∧ Withdrawn .restart [] s t ∧ t.host.result = .done ∧ t.host.lastCommand = 0x03

/-- Marks too late or too often too early. MARK_TIMEOUT (R6, R88): on the link, and in LISTENING after the first mark,
LINK_MISMATCH with reason 4 is posted and the station withdraws; in SEEK nothing happens (log entry 8). The third short interval
in a row (R11): LINK_MISMATCH with reason 5, and the withdrawal. The reports carry the cycle number held when they are posted
(log entry 15). In OFFLINE either claim does nothing, unless another claim of the same tick has withdrawn the station: then it
is discarded and its report stays, judged by the tables that were frozen then (R77, R79, R90; log entry 19). -/
def Obligations.BadMarkTimingWithdraws : Prop :=
  (∀ s : State, s.pins.rstn = true →
    (onLink s = true ∨ s.station = .listening ∧ s.acq.phase ≠ .seek →
      ∃ t : State, exec .markTimeout s = .next t ∧
        Withdrawn .linkMismatch [reportOf (.linkMismatch .markTimeout 0 s.station) s.number s] s t ∧ resultKept s t) ∧
    (s.station = .listening → s.acq.phase = .seek → exec .markTimeout s = .next s) ∧
    (s.station = .offline → s.now.left = none → exec .markTimeout s = .next s) ∧
    (∀ start : Nat, onLink s = true → tailStart s ≤ start → start < cycleLength s - cycleLength s / 64 → 2 ≤ s.link.shorts →
      ∃ t : State, exec (.markAccepted start) s = .next t ∧
        Withdrawn .linkMismatch [reportOf (.linkMismatch .shortInterval 0 s.station) s.number s] s t ∧ resultKept s t)) ∧
  ∀ (b : Leaving) (s : State), s.pins.rstn = true → s.station = .offline → s.now.left = some b →
    let linked : Prop := b.station = .joined ∨ b.station = .running ∨ b.station = .tripped
    let was : State := { s with tables := b.tables }
    (linked ∨ b.station = .listening ∧ b.acq.phase ≠ .seek →
      exec .markTimeout s = .next (postSelf (.linkMismatch .markTimeout 0 .offline) s)) ∧
    (∀ start : Nat, linked → tailStart was ≤ start → start < cycleLength was - cycleLength was / 64 → 2 ≤ b.link.shorts →
      exec (.markAccepted start) s = .next (postSelf (.linkMismatch .shortInterval 0 .offline) s))

/-- LONE_START (R84, R133, R135): in SEEK the station enters JOINED with cycle number 0, the timer at 0, its counts, flags and
sequence counter reset, and LINK_ALONE posted; with the filtered trip line asserted it trips on TRIP_LINE in the same step under a
TRIP row, reports it under REPORT, and does nothing more under IGNORE. That this cause is taken with the entry, ahead of every
other of the tick, is the model's choice (log entry 37). In every other state it does nothing (log entry 8). -/
def Obligations.LoneStartEntersJoined : Prop :=
  ∀ s : State, s.pins.rstn = true →
    let joined : State := { s with
      station := .joined
      acq := Acquisition.start
      link := { s.link with cycle := 0, timer := 0, failures := 0, shorts := 0, discord := false }
      change := { s.change with sequence := 0, viewDiscord := false }
      host := { s.host with reports := arrive s.host.reports ⟨.linkAlone, false, 0, s.number⟩ }
      now := { s.now with arrived := true } }
    let row := rowOf s.tables .tripLine
    (s.station = .listening → s.acq.phase = .seek →
      s.trip.tripLine.asserted = false ∨ row.action = .ignore ∨ row.action = .respace → exec .loneStart s = .next joined) ∧
    (s.station = .listening → s.acq.phase = .seek → s.trip.tripLine.asserted = true → row.action = .report →
      exec .loneStart s = .next { joined with host := { joined.host with
        reports := arrive joined.host.reports (reportOf (.causeSeen .tripLine .joined none) s.number joined) } }) ∧
    (s.station = .listening → s.acq.phase = .seek → s.trip.tripLine.asserted = true →
      row.action = .trip →
      ∃ t : State, exec .loneStart s = .next t ∧ TrippedBy .tripLine row.drive s.number none joined t) ∧
    (s.station ≠ .listening ∨ s.acq.phase ≠ .seek → exec .loneStart s = .next s)

/-! ## Trips -/

/-- STOP (R136, R137, R140, R142): refused outside the link; from JOINED and RUNNING a trip entry with first cause HOST; in TRIPPED
the HOST cause is added once. TRPn is pulled low by the entry under a row with the drive flag, and by the addition of such a row. -/
def Obligations.StopTripsOrAdds : Prop :=
  ∀ s : State, s.pins.rstn = true →
    let row := rowOf s.tables .host
    (s.station = .offline ∨ s.station = .listening →
      exec .stop s = .next { s with host := { s.host with
        lastCommand := 0x08, result := .refusedState, detail := stateDetail s.station } }) ∧
    (s.station = .joined ∨ s.station = .running →
      ∃ t : State, exec .stop s = .next t ∧ TrippedBy .host row.drive s.number none s t ∧
        (row.drive = true → trpnDriven t = true) ∧ t.host.result = .done ∧
        t.host.detail = 0 ∧ t.host.lastCommand = 0x08) ∧
    (s.station = .tripped → hasCause .host s.trip.causes = false → ∃ t : State, exec .stop s = .next t ∧
      (trpnDriven t = true ↔ s.trip.drive = true ∨ row.drive = true) ∧ t = { s with
        trip := { s.trip with causes := s.trip.causes ||| causeBit .host, drive := s.trip.drive || row.drive }
        host := { s.host with
          lastCommand := 0x08, result := .done, detail := 1
          reports := arrive s.host.reports
            (reportOf (.tripAdded .host (s.trip.drive || row.drive) none) s.number s) } }) ∧
    (s.station = .tripped → hasCause .host s.trip.causes = true →
      exec .stop s = .next { s with host := { s.host with lastCommand := 0x08, result := .done, detail := 2 } })

/-- CLEAR (R143, R144): refused outside TRIPPED with the state as detail; refused in TRIPPED with the lowest fault input of the
cause set that is still asserted; otherwise the drive is released and the settle begins with RESULT BUSY. -/
def Obligations.ClearChecksThenReleases : Prop :=
  ∀ s : State, s.pins.rstn = true →
    let stands (i : Fin 4) : Prop := hasCause (.fault i) s.trip.causes = true ∧ s.trip.faults[i].asserted = true
    (s.station ≠ .tripped →
      exec .clear s = .next { s with host := { s.host with
        lastCommand := 0x07, result := .refusedState, detail := stateDetail s.station } }) ∧
    (∀ i : Fin 4, s.station = .tripped → stands i → (∀ j : Fin 4, j < i → ¬stands j) →
      exec .clear s = .next { s with host := { s.host with
        lastCommand := 0x07, result := .refusedActive, detail := natByte i.val } }) ∧
    (s.station = .tripped → (∀ i : Fin 4, ¬stands i) →
      ∃ t : State, exec .clear s = .next t ∧ trpnDriven t = false ∧
        t = { s with
          host := { s.host with lastCommand := 0x07, result := .busy, detail := 0 }
          trip := { s.trip with drive := false, settling := true, settled := 0 } })

/-- CLEAR_SAMPLE (R144, R146): a low line with a TRIP row keeps the station TRIPPED with TRIP_LINE in its cause set and the result
REFUSED_ACTIVE 4; any other sample returns it to JOINED with its record cleared and TRIP_CLEARED posted. The detail of DONE is open
(log entry 5). Without a settle nothing happens (log entry 8). -/
def Obligations.ClearSampleDecides : Prop :=
  ∀ (low : Bool) (s : State), s.pins.rstn = true → s.station = .tripped →
    let refused : Prop := low = true ∧ (rowOf s.tables .tripLine).action = .trip
    (s.trip.settling = true → ¬refused →
      ∃ t : State, exec (.clearSample low) s = .next t ∧ t.station = .joined ∧
        t.trip = { s.trip with
          first := none, causes := 0, entry := 0, drive := false, tripLine := { asserted := false, run := 0 },
          settling := false, settled := 0 } ∧
        t.change = { s.change with viewDiscord := false } ∧ t.host.result = .done ∧
        t.host.reports = arrive s.host.reports
          (reportOf (.tripCleared s.trip.first s.trip.causes (s.link.cycle - s.trip.entry).toNat) s.number s) ∧
        t.gate = s.gate ∧ t.carrier = s.carrier ∧ t.setpoint = s.setpoint ∧ t.roster = s.roster ∧ t.link = s.link ∧
        t.tables = s.tables ∧ t.number = s.number ∧ t.pins = s.pins ∧ t.pending = s.pending) ∧
    (s.trip.settling = true → refused →
      ∃ t : State, exec (.clearSample low) s = .next t ∧ t.station = .tripped ∧ t.host.result = .refusedActive ∧
        t.host.detail = 4 ∧ t.trip.settling = false ∧ t.trip.causes = s.trip.causes ||| causeBit .tripLine ∧
        t.trip.first = s.trip.first ∧ t.trip.entry = s.trip.entry ∧
        t.host.reports = (if hasCause .tripLine s.trip.causes then s.host.reports
          else arrive s.host.reports
            (reportOf (.tripAdded .tripLine (s.trip.drive || (rowOf s.tables .tripLine).drive) none) s.number s)) ∧
        t.change = s.change ∧ t.link = s.link ∧ t.roster = s.roster ∧ t.gate = s.gate ∧ t.tables = s.tables) ∧
    (s.trip.settling = false → exec (.clearSample low) s = .next s)

/-- FILTERED_LEVEL_CHANGE of a fault input (R85, R90, R132, R133, R135, R136, R138, R140): the filtered level turns over once its
run has reached 4f + 1 ticks, and with a shorter run nothing happens (log entry 8). Becoming asserted it trips a JOINED or RUNNING
station under a TRIP row, joins the cause set of a TRIPPED one that does not hold it, is reported under a REPORT row, and does
nothing more under IGNORE or in OFFLINE. An acquisition it ends with JOIN_ABORTED, also where the entry into JOINED of the same
tick was taken first; in OFFLINE such a claim of the tick of a withdrawal leaves its report, by the rows
frozen then and not by one written since (R79, R156; log entry 19). TRPn is low after a
trip entry or an addition under a row with the drive flag. -/
def Obligations.FaultLevelChange : Prop :=
  ∀ (i : Fin 4) (s : State), s.pins.rstn = true →
    let length := 4 * s.tables.link.faultFilter + 1
    let before := s.trip.faults[i].asserted
    let row := rowOf s.tables (.fault i)
    let turned : State := { s with
      trip := { s.trip with faults := s.trip.faults.set i.val { asserted := !before, run := 0 } } }
    let c : Instr := .filteredLevelChange (.flt i)
    let acquiring : Prop := ∃ b, s.now.left = some b ∧ (b.station = .listening ∨ s.now.arrived = true) ∧
      (rowOf b.tables (.fault i)).action = .trip
    let earlier : Prop := s.now.arrived = false
    (s.trip.faults[i].run < length → exec c s = .next s) ∧
    (length ≤ s.trip.faults[i].run →
      (before = true ∨ s.station ≠ .offline ∧ (row.action = .ignore ∨ row.action = .respace) ∨
          s.station = .offline ∧ ¬acquiring → exec c s = .next turned) ∧
      (before = false → s.station = .offline → acquiring →
        exec c s = .next (postSelf (.joinAborted i) turned)) ∧
      (before = false → row.action = .report → s.station ≠ .offline →
        exec c s = .next { turned with host := { s.host with
          reports := arrive s.host.reports (reportOf (.causeSeen (.fault i) s.station none) s.number s) } }) ∧
      (before = false → row.action = .trip → earlier → s.station = .joined ∨ s.station = .running →
        ∃ t : State, exec c s = .next t ∧ TrippedBy (.fault i) row.drive s.number none turned t ∧
          (row.drive = true → trpnDriven t = true) ∧ t.host.result = s.host.result) ∧
      (before = false → row.action = .trip → earlier → s.station = .tripped → hasCause (.fault i) s.trip.causes = true →
        exec c s = .next turned) ∧
      (before = false → row.action = .trip → earlier → s.station = .tripped → hasCause (.fault i) s.trip.causes = false →
        ∃ t : State, exec c s = .next t ∧ t.station = .tripped ∧ t.trip.causes = s.trip.causes ||| causeBit (.fault i) ∧
          t.trip.drive = (s.trip.drive || row.drive) ∧ (trpnDriven t = true ↔ t.trip.drive = true) ∧
          t.trip.first = s.trip.first ∧ t.trip.entry = s.trip.entry ∧ t.trip.settling = false ∧
          (s.trip.settling = true → t.host.result = .refusedActive ∧ t.host.detail = natByte i.val) ∧
          t.host.reports = arrive s.host.reports
            (reportOf (.tripAdded (.fault i) (s.trip.drive || row.drive) none) s.number s)) ∧
      (before = false → row.action = .trip → s.station = .listening ∨ s.station ≠ .offline ∧ ¬earlier →
        ∃ t : State, exec c s = .next t ∧
          Withdrawn .joinAborted [reportOf (.joinAborted i) s.number s] turned t))

/-- FILTERED_LEVEL_CHANGE of the trip line (R132, R133, R135, R138, R139, R141): the filtered level turns over once its run has
reached 4f + 1 ticks, and with a shorter run nothing happens (log entry 8). Becoming asserted it trips a JOINED or RUNNING station
under a TRIP row; it is no cause in OFFLINE, LISTENING and TRIPPED, but where another cause of the same tick has made the trip
entry it has been raised before that, and is added or reported (log entry 29); becoming deasserted it is no cause at all. -/
def Obligations.TripLineLevelChange : Prop :=
  ∀ s : State, s.pins.rstn = true →
    let length := 4 * s.tables.link.faultFilter + 1
    let before := s.trip.tripLine.asserted
    let row := rowOf s.tables .tripLine
    let turned : State := { s with trip := { s.trip with tripLine := { asserted := !before, run := 0 } } }
    let c : Instr := .filteredLevelChange .trpn
    (s.trip.tripLine.run < length → exec c s = .next s) ∧
    (length ≤ s.trip.tripLine.run →
      (before = true ∨ row.action = .ignore ∨ row.action = .respace ∨ s.station = .offline ∨ s.station = .listening ∨
          s.station = .tripped ∧ s.now.entered = false → exec c s = .next turned) ∧
      (before = false → s.station = .joined ∨ s.station = .running → row.action = .trip →
        ∃ t : State, exec c s = .next t ∧ TrippedBy .tripLine row.drive s.number none turned t) ∧
      (before = false → s.station = .joined ∨ s.station = .running ∨ s.station = .tripped ∧ s.now.entered = true →
        row.action = .report →
        exec c s = .next { turned with host := { s.host with
          reports := arrive s.host.reports (reportOf (.causeSeen .tripLine s.station none) s.number s) } }) ∧
      (before = false → s.station = .tripped → s.now.entered = true → row.action = .trip →
        (hasCause .tripLine s.trip.causes = true → exec c s = .next turned) ∧
        (hasCause .tripLine s.trip.causes = false →
          exec c s = .next { turned with
            trip := { turned.trip with
              causes := s.trip.causes ||| causeBit .tripLine, drive := s.trip.drive || row.drive }
            host := { s.host with
              reports := arrive s.host.reports (reportOf (.tripAdded .tripLine (s.trip.drive || row.drive) none) s.number s) } })))

/-! ## Setpoints -/

/-- PUSH (R119, R120, R164): a record with the tag of a configured profile, four valid modes and compare values within the tag's
range joins the tail of a queue with room; the first failing check gives the result and leaves the queue. -/
def Obligations.PushChecksThenAppends : Prop :=
  ∀ s : State, s.pins.rstn = true →
    let a := s.host.args
    let tag := a[1].toNat / 16
    let code : PerLeg Nat := { a := a[0].toNat % 16, b := a[0].toNat / 16, c := a[1].toNat % 16 }
    let value : PerLeg Nat :=
      { a := a[2].toNat + 256 * a[3].toNat, b := a[4].toNat + 256 * a[5].toNat, c := a[6].toNat + 256 * a[7].toNat }
    let p := profileAt s.tables (BitVec.ofNat 3 tag)
    let top := compareTop s.tables.link p
    let tagGood : Prop := 1 ≤ tag ∧ tag ≤ 7 ∧ p.configured = true
    let legGood (leg : Leg) : Prop := code.get leg ≤ 3 ∧ value.get leg ≤ top
    let refused (r : ResultCode) (detail : Byte) : Out :=
      .next { s with host := { s.host with lastCommand := 0x09, result := r, detail := detail } }
    (inGroup s = false → exec .push s = refused .refusedState (stateDetail s.station)) ∧
    (inGroup s = true → ¬tagGood → exec .push s = refused .refusedProfile (natByte tag)) ∧
    (inGroup s = true → tagGood → ¬legGood .a → exec .push s = refused .refusedRange 0) ∧
    (inGroup s = true → tagGood → legGood .a → ¬legGood .b → exec .push s = refused .refusedRange 1) ∧
    (inGroup s = true → tagGood → legGood .a → legGood .b → ¬legGood .c → exec .push s = refused .refusedRange 2) ∧
    (inGroup s = true → tagGood → (∀ leg, legGood leg) → 4 ≤ s.setpoint.queue.length →
      exec .push s = refused .refusedFull 4) ∧
    (inGroup s = true → tagGood → (∀ leg, legGood leg) → s.setpoint.queue.length < 4 →
      ∃ r : Setpoint, r.tag.toNat = tag ∧
        (∀ leg, (modeCode (r.legs.get leg).mode).toNat = code.get leg ∧ (r.legs.get leg).compare.toNat = value.get leg) ∧
        exec .push s = .next { s with
          setpoint := { s.setpoint with queue := s.setpoint.queue ++ [r] }
          host := { s.host with
            lastCommand := 0x09, result := .done, detail := natByte (s.setpoint.queue.length + 1) } })

/-- FLUSH (R121): in every station state the queue is emptied, the result is DONE with the number of records removed, nothing else
changes and no report is posted; the next load of the queue starves. -/
def Obligations.FlushEmptiesTheQueue : Prop :=
  ∀ s : State, s.pins.rstn = true →
    ∃ t : State, exec .flush s = .next t ∧
      t = { s with
        setpoint := { s.setpoint with queue := [] }
        host := { s.host with lastCommand := 0x0A, result := .done, detail := natByte s.setpoint.queue.length } } ∧
      queueLoad t = starvedLoad t

/-- LOAD_POINT under a QUEUE profile (R104, R124, R125): the stale records at the head are discarded with one STALE_SETPOINT,
then the head becomes live and ends the starve run; the legs take the modes and compare values that the profile enables (R108).
The carrier stands at the load position, and the advance and the load are each judged there (R110, R111, R112, R113), in either
order (log entry 30): no gate turns on; a gate stays on exactly if both judgements demand it, and one demanded at the end and
off is pending. Nothing but the carrier, the gates, the setpoints and the queue of reports changes. -/
def Obligations.LoadPointTakesQueueHead : Prop :=
  ∀ (position : LoadPosition) (stale rest : List Setpoint) (r : Setpoint) (s : State), s.pins.rstn = true →
    s.station = .running → s.carrier.running = true → settingHas s.carrier.loadSetting position = true →
    (liveProfile s).source = .queue → s.setpoint.queue = stale ++ r :: rest → r.tag = s.change.profile →
    (∀ x ∈ stale, x.tag ≠ s.change.profile) →
    ∃ t : State, exec (.loadPoint position) s = .next t ∧
      t.setpoint = { s.setpoint with queue := rest, live := r.legs, starve := 0, starveRun := false } ∧
      t.carrier = { s.carrier with
        position := match position with | .valley => 0 | .peak => s.carrier.period / 2, setThisTick := false } ∧
      (∀ leg, (t.gate.legs.get leg).mode = (if (liveProfile s).enables.get leg then (r.legs.get leg).mode else .off) ∧
        (t.gate.legs.get leg).compare = (if (liveProfile s).enables.get leg then (r.legs.get leg).compare else 0)) ∧
      (∀ leg : Leg,
        let l := s.gate.legs.get leg
        let l' := t.gate.legs.get leg
        let old := carrierValue s.carrier.shape s.carrier.period (previousPosition s.carrier.period t.carrier.position)
        let new := carrierNow t
        ∀ side,
          (gateOn l' side = true → gateOn l side = true ∧ demand l'.mode l'.compare new = some side ∧
            (demand l.mode l.compare new = some side ∨ demand l'.mode l'.compare old = some side)) ∧
          (gateOn l side = true → demand l'.mode l'.compare new = some side → demand l.mode l.compare new = some side →
            demand l'.mode l'.compare old = some side → gateOn l' side = true) ∧
          (l'.pending = some side ↔ demand l'.mode l'.compare new = some side ∧ gateOn l' side = false)) ∧
      t.host = { s.host with reports := match stale with
        | [] => s.host.reports
        | x :: xs => arrive s.host.reports
            (reportOf (.staleSetpoint (xs.length + 1) x.tag s.change.profile) s.number s) } ∧
      t.gate.deadTime = s.gate.deadTime ∧
      t = { s with setpoint := t.setpoint, carrier := t.carrier, gate := t.gate, host := t.host, free := t.free }

/-- LOAD_POINT that finds no usable record, the queue empty or of stale records only (R124, R125): the stale ones are discarded
with one STALE_SETPOINT, the live setpoint is held, the first starved load of a run posts STARVE_BEGIN, the count advances up to
the limit, and the STARVED cause goes to the Trip Unit at the load that reaches it: under REPORT it posts CAUSE_SEEN, under TRIP
it trips the station (R136). While an event of the tick waits that may trip or withdraw the station, it is taken after the events
of the tick, against the state they leave (R129, R139): in TRIPPED it is added to the cause set, in OFFLINE it is discarded. While
only others wait, a PUSH or a FLUSH for one, it is taken before them or after them (R122; log entry 32). -/
def Obligations.StarvedLoadCountsToTheLimit : Prop :=
  ∀ (position : LoadPosition) (s : State), s.pins.rstn = true → s.station = .running → s.carrier.running = true →
    settingHas s.carrier.loadSetting position = true → (liveProfile s).source = .queue →
    (∀ x ∈ s.setpoint.queue, x.tag ≠ s.change.profile) →
    let limit := s.tables.link.starveLimit
    let stale := match s.setpoint.queue with
      | [] => []
      | x :: xs => [reportOf (.staleSetpoint (xs.length + 1) x.tag s.change.profile) s.number s]
    let begin := stale ++
      if s.setpoint.starveRun then [] else [reportOf (.starveBegin s.change.profile limit) s.number s]
    let starved (count : Nat) : SetpointUnit := { s.setpoint with queue := [], starveRun := true, starve := count }
    let reaches : Prop := s.setpoint.starve + 1 = limit
    let row := rowOf s.tables .starved
    (¬reaches →
      ∃ t : State, exec (.loadPoint position) s = .next t ∧ t.station = .running ∧
        t.setpoint = starved (if s.setpoint.starve < limit then s.setpoint.starve + 1 else s.setpoint.starve) ∧
        t.host.reports = postAll begin s.host.reports ∧ t.now = s.now) ∧
    (reaches → row.action = .report ∨ row.action = .trip →
      ∃ t : State, exec (.loadPoint position) s = .next t ∧
        let waits : Prop := t.station = .running ∧ t.setpoint = starved limit ∧ t.host.reports = postAll begin s.host.reports ∧
          t.now.waiting = s.now.waiting ++ [.cause ⟨.starved, s.number, none⟩]
        let taken : Prop := t.now.waiting = s.now.waiting ∧
          (row.action = .report → t.station = .running ∧ t.setpoint = starved limit ∧
            t.host.reports =
              postAll (begin ++ [reportOf (.causeSeen .starved .running none) s.number s]) s.host.reports) ∧
          (row.action = .trip → t.station = .tripped ∧ t.setpoint = SetpointUnit.empty ∧
            t.gate = Gate.off ∧ t.carrier = Carrier.stopped ∧ t.trip.first = some .starved ∧ t.change.view = 0 ∧
            t.host.reports = postAll (begin ++ reportOf (.tripped .starved row.drive .running none) s.number s ::
              abandonedReports .trip s) s.host.reports)
        (waits ∨ taken) ∧ (s.pending.any mayClaim = true → waits) ∧ (s.pending = [] → taken)) ∧
    (row.action = .trip → hasCause .starved s.trip.causes = false →
      let drive := s.trip.drive || row.drive
      let added := reportOf (.tripAdded .starved drive none) s.number s
      takeCause .starved s.number none { s with station := .tripped } = { s with
        station := .tripped
        trip := { s.trip with causes := s.trip.causes ||| causeBit .starved, drive := drive }
        host := { s.host with reports := arrive s.host.reports added } }) ∧
    takeCause .starved s.number none { s with station := .offline } = { s with station := .offline }

/-- LOAD_POINT under a PATTERN profile (R126): entries s to s + len - 1 in turn, in a loop with repeat; without repeat the load
after the last entry turns all legs OFF with PATTERN_END, and the queue is never touched. -/
def Obligations.PatternLoadPlaysInOrder : Prop :=
  ∀ (position : LoadPosition) (s : State), s.pins.rstn = true → s.station = .running → s.carrier.running = true →
    settingHas s.carrier.loadSetting position = true → (liveProfile s).source = .pattern →
    let p := liveProfile s
    let at_ := s.setpoint.position
    (s.setpoint.ended = true →
      ∃ t : State, exec (.loadPoint position) s = .next t ∧ t.setpoint = s.setpoint ∧ t.host = s.host) ∧
    (∀ h : p.patternStart + at_ < 64, s.setpoint.ended = false → at_ < p.patternLength →
      ∃ t : State, exec (.loadPoint position) s = .next t ∧ t.host = s.host ∧
        t.setpoint = { s.setpoint with
          live := s.tables.pattern[p.patternStart + at_]
          position := if p.patternRepeat = true ∧ at_ + 1 = p.patternLength then 0 else at_ + 1 }) ∧
    (s.setpoint.ended = false → at_ = p.patternLength → p.patternRepeat = false →
      ∃ t : State, exec (.loadPoint position) s = .next t ∧
        t.setpoint = { s.setpoint with live := allOff, ended := true } ∧
        (∀ leg side, gateOn (t.gate.legs.get leg) side = false) ∧
        t.host.reports = arrive s.host.reports
          (reportOf (.patternEnd s.change.profile p.patternStart p.patternLength) s.number s))

/-! ## Carrier and gates -/

/-- The carrier (R94, R95, R96). Under a TRIANGLE its value runs from 0 to H, symmetric about the peak, and under a SAW from 0
to P - 1; the position advances by one and wraps at P. The phase offsets of a view lie below the period, are 0 for the lowest
member and with interleave OFF, and those of two members of neighbouring ranks differ by floor(P/n) or one tick more. -/
def Obligations.CarrierValuesAndOffsets : Prop :=
  (∀ period x : Nat, period % 2 = 0 → x < period →
    carrierValue (some .triangle) period x ≤ period / 2 ∧
    (∀ k, k ≤ period / 2 → x = period / 2 + k →
      carrierValue (some .triangle) period x = carrierValue (some .triangle) period (period / 2 - k)) ∧
    (x ≤ period / 2 → carrierValue (some .triangle) period x = x) ∧
    carrierValue (some .saw) period x = x ∧ nextPosition period x < period ∧
    (x + 1 < period → nextPosition period x = x + 1) ∧ (x + 1 = period → nextPosition period x = 0)) ∧
  ∀ (l : LinkTable) (p : Profile) (view : StationSet),
    let period := periodOf l p
    let n := (List.range 16).countP (fun i => view.getLsbD i)
    (∀ k : StationNo, member k view = true →
      phaseOffset p period k view ≤ period - period / n ∧
      (p.interleave = false → phaseOffset p period k view = 0) ∧
      ((∀ j : StationNo, member j view = true → k ≤ j) → phaseOffset p period k view = 0)) ∧
    (∀ j k : StationNo, member j view = true → member k view = true → j < k →
      (∀ i : StationNo, j < i → i < k → member i view = false) → p.interleave = true →
      phaseOffset p period k view = phaseOffset p period j view + period / n ∨
      phaseOffset p period k view = phaseOffset p period j view + period / n + 1)

/-- COMPARE_CROSSING (R109, R111, R112): at the new carrier value SWITCH demands the upper gate when the value is below the
compare value and the lower gate otherwise, UPPER_ON and LOWER_ON always that gate, and OFF neither; a gate whose demand has
fallen is off at once and its wait cancelled, a gate newly demanded waits from count 0, a gate demanded and on stays on, a wait
whose demand holds keeps its count, and no gate turns on. Only the carrier position and the legs' gates change. A position
outside the period has no effect (log entry 8). -/
def Obligations.CompareCrossingJudgesLegs : Prop :=
  ∀ (position : Nat) (s : State), s.pins.rstn = true →
    (s.station = .running → s.carrier.running = true → position < s.carrier.period →
      ∃ t : State, exec (.compareCrossing position) s = .next t ∧
        t.carrier = { s.carrier with position := position, setThisTick := false } ∧
        (∀ leg : Leg,
          let l := s.gate.legs.get leg
          let l' := t.gate.legs.get leg
          let below : Prop := carrierValue s.carrier.shape s.carrier.period position < l.compare.toNat
          let wanted (side : Side) : Prop := match side with
            | .upper => l.mode = .upperOn ∨ l.mode = .switch ∧ below
            | .lower => l.mode = .lowerOn ∨ l.mode = .switch ∧ ¬below
          l'.mode = l.mode ∧ l'.compare = l.compare ∧
          (∀ side, gateOn l' side = true ↔ gateOn l side = true ∧ wanted side) ∧
          (∀ side, l'.pending = some side ↔ wanted side ∧ gateOn l side = false) ∧
          (∀ side, wanted side → gateOn l side = false → l.pending = some side → l'.count = l.count) ∧
          ((∀ side, wanted side → gateOn l side = true ∨ l.pending ≠ some side) → l'.count = 0)) ∧
        t.gate.deadTime = s.gate.deadTime ∧ t = { s with carrier := t.carrier, gate := t.gate }) ∧
    (s.carrier.running = false ∨ s.carrier.period ≤ position → exec (.compareCrossing position) s = .next s)

/-- DEAD_TIME_ELAPSED (R112): the pending gate, whose count has reached the dead time, turns on, the pending gate becomes NONE
and the count 0, and nothing else changes; where that gate is not pending or has not waited as long, or the station is not
RUNNING, nothing happens (log entry 8). -/
def Obligations.DeadTimeTurnsPendingGateOn : Prop :=
  ∀ (leg : Leg) (gate : Side) (s : State), s.pins.rstn = true →
    let l := s.gate.legs.get leg
    (s.station = .running → l.pending = some gate → s.gate.deadTime ≤ l.count →
      ∃ t : State, exec (.deadTimeElapsed leg gate) s = .next t ∧
        gateOn (t.gate.legs.get leg) gate = true ∧ (t.gate.legs.get leg).pending = none ∧ (t.gate.legs.get leg).count = 0 ∧
        (t.gate.legs.get leg).mode = l.mode ∧ (t.gate.legs.get leg).compare = l.compare ∧
        (∀ side, side ≠ gate → gateOn (t.gate.legs.get leg) side = gateOn l side) ∧
        (∀ other, other ≠ leg → t.gate.legs.get other = s.gate.legs.get other) ∧
        t.gate.deadTime = s.gate.deadTime ∧ t = { s with gate := t.gate }) ∧
    (s.station ≠ .running ∨ l.pending ≠ some gate ∨ l.count < s.gate.deadTime →
      exec (.deadTimeElapsed leg gate) s = .next s)

/-- The mark re-phase of a running carrier (R100, R101, R102): the position becomes the offset, with the gates judged there
(R110), and a carrier that an application has set in this tick is left. It makes exactly one load, as a load point does (R104,
R108, R123), where the correction is at most H and a load position lies among the positions from the natural one up to the offset,
and otherwise none. A backward correction has the carrier run again the positions after the offset up to the old one; those that
are left to be run again at a later mark do not count there (log entry 39). At an accepted mark of a RUNNING station with its slot
NONE this re-phase is the whole effect on the carrier, the gates and the setpoints, in either order of the blocks (log entries 3
and 30); where its load raises STARVED, that stands under a row without TRIP, or while an event of the tick waits that may trip or
withdraw the station (R139), and under TRIP the station trips, at once or after the other events that wait (log entry 32). -/
def Obligations.MarkRephaseSetsTheOffset : Prop :=
  (∀ s : State, s.carrier.running = true → s.carrier.offset < s.carrier.period → s.carrier.position < s.carrier.period →
    let natural := nextPosition s.carrier.period s.carrier.position
    let forward := (s.carrier.offset + s.carrier.period - natural) % s.carrier.period
    let loads : Prop := forward ≤ s.carrier.period / 2 ∧
      ∃ x ∈ loadPositions s.carrier.loadSetting s.carrier.period, ∃ d, s.carrier.rerun ≤ d ∧ d ≤ forward ∧
        x % s.carrier.period = (natural + d) % s.carrier.period
    let t := (markRephase s).1
    (s.carrier.setThisTick = true → markRephase s = (s, false)) ∧
    (s.carrier.setThisTick = false →
      t.carrier = { s.carrier with
        position := s.carrier.offset
        rerun := if forward ≤ s.carrier.period / 2 then s.carrier.rerun - (forward + 1)
          else s.carrier.rerun + (s.carrier.period - forward) - 1 } ∧ t.gate.deadTime = s.gate.deadTime ∧
      t = { s with carrier := t.carrier, gate := t.gate, setpoint := t.setpoint, host := t.host, free := t.free } ∧
      (loads → t.setpoint = (load s).1.setpoint ∧ t.host = (load s).1.host ∧ (markRephase s).2 = (load s).2) ∧
      (¬loads → t.setpoint = s.setpoint ∧ t.host = s.host ∧ (markRephase s).2 = false) ∧
      (s.station = .running → ∀ leg : Leg,
        let l := s.gate.legs.get leg
        let l' := t.gate.legs.get leg
        let live := t.setpoint.live.get leg
        (loads → l'.mode = (if (liveProfile s).enables.get leg then live.mode else .off) ∧
          l'.compare = (if (liveProfile s).enables.get leg then live.compare else 0)) ∧
        (¬loads → l'.mode = l.mode ∧ l'.compare = l.compare) ∧
        let between := if forward = 0 ∧ Config.firstOfTwo s.free = true then
            demand l'.mode l'.compare (carrierValue s.carrier.shape s.carrier.period s.carrier.position)
          else demand l.mode l.compare (carrierNow t)
        ∀ side,
          (gateOn l' side = true ↔ gateOn l side = true ∧ demand l'.mode l'.compare (carrierNow t) = some side ∧
            (loads → between = some side)) ∧
          (l'.pending = some side ↔ demand l'.mode l'.compare (carrierNow t) = some side ∧ gateOn l' side = false)))) ∧
  ∀ (start : Nat) (s : State), s.pins.rstn = true → s.station = .running → s.carrier.running = true →
    tailStart s ≤ start → (start < cycleLength s - cycleLength s / 64 → s.link.shorts < 2) →
    s.change.slot.state = .vacant →
    let r := markRephase { numbered start s with free := s.free + 1 }
    (r.2 = false →
      exec (.markAccepted start) s = .next { r.1 with change := { r.1.change with collection := [] } }) ∧
    (r.2 = true → ∃ t : State, exec (.markAccepted start) s = .next t ∧
      let stands : Prop := t.station = .running ∧ t.carrier = r.1.carrier ∧ t.gate = r.1.gate ∧ t.setpoint = r.1.setpoint ∧
        t.change = { r.1.change with collection := [] }
      let tripped : Prop := t.station = .tripped ∧ t.trip.first = some .starved ∧
        t.trip.drive = (rowOf s.tables .starved).drive ∧ t.gate = Gate.off ∧ t.carrier = Carrier.stopped ∧
        t.setpoint = SetpointUnit.empty ∧ t.change.view = 0
      (stands ∨ tripped) ∧ ((rowOf s.tables .starved).action ≠ .trip ∨ s.pending.any mayClaim = true → stands) ∧
        ((rowOf s.tables .starved).action = .trip → s.pending = [] → tripped))

/-! ## Marks -/

/-- The station's own mark (R7): at timer value L in mark state NONE it begins on a recessive line and is deferred on a dominant
one, the timer at L or, where the bit time in which it has reached L is counted already, past it (R1, R6); a deferred mark begins
when the run ends unaccepted; after twelve bit times it ends and LTX is released, and the level remembered of that tick is the one
the others give the line, so that a station that drives from the next tick on makes a transition (R1). Nothing but the mark state,
the timer, the count of its bit times, the level on LTX and the one remembered changes: a run in progress goes on (R1). -/
def Obligations.OwnMarkBeginsDefersAndEnds : Prop :=
  ∀ s : State, s.pins.rstn = true →
    (onLink s = true → s.link.mark = .quiet →
      (∃ t : State, exec (.timerReachesL false) s = .next t ∧ t.link.mark = .driving ∧ ltxDominant t = true ∧
        t = { s with link := { s.link with
          mark := .driving, timer := max s.link.timer (cycleLength s)
          bits := { s.link.bits with driven := 0, level := t.link.bits.level } } }) ∧
      (∃ t : State, exec (.timerReachesL true) s = .next t ∧
        t = { s with link := { s.link with mark := .deferred, timer := max s.link.timer (cycleLength s) } })) ∧
    (onLink s = true → s.link.mark = .deferred →
      ∃ t : State, exec .deferredMarkStart s = .next t ∧ ltxDominant t = true ∧
        t = { s with link := { s.link with
          mark := .driving, bits := { s.link.bits with driven := 0, level := t.link.bits.level } } }) ∧
    (s.link.mark = .driving →
      ∃ t : State, exec .markDriveEnd s = .next t ∧
        (s.link.bits.sending = false → ltxDominant t = false ∧ t.link.bits.level = s.pins.lineOthers) ∧
        t.link.bits.level = lrxDominant t ∧
        t = { s with link := { s.link with
          mark := .quiet, bits := { s.link.bits with driven := 0, level := t.link.bits.level } } })

/-- MARK_ACCEPTED on the link (R6, R8, R10, R11, R18, R35, R42): a run that began in the tail restarts the timer at 12, counts a
short interval or ends the count, numbers the new cycle by the tally, and empties the tally, the mismatch flag and the refresh
collection. A tally of different numbers posts CYCLE_DISCORD with its frames and its distinct numbers, ahead of the mark event's
own reports, and with the discord flag set already it posts none: a TRIPPED station, whose mark event posts nothing, then keeps
its report queue. A run that began in the mark field is nothing, and no run is a mark in OFFLINE, where only a claim of the tick
of a withdrawal leaves a report (log entry 19). -/
def Obligations.MarkRestartsAndNumbersTheCycle : Prop :=
  ∀ (start : Nat) (s : State), s.pins.rstn = true →
    let own := s.link.cycle
    let short : Prop := start < cycleLength s - cycleLength s / 64
    (onLink s = true → tailStart s ≤ start → (short → s.link.shorts < 2) →
      ∃ t : State, exec (.markAccepted start) s = .next t ∧ t.link.timer = 12 ∧ t.link.tally = [] ∧
        (short → t.link.shorts = s.link.shorts + 1) ∧ (¬short → t.link.shorts = 0) ∧
        (s.link.mark = .deferred → t.link.mark = .quiet) ∧
        ((∀ v ∈ s.link.tally, v = own) → t.link.cycle = own + 1 ∧ t.link.discord = false) ∧
        (∀ v, v ≠ own → s.link.tally ≠ [] → (∀ w ∈ s.link.tally, w = v) →
          t.link.cycle = v + 1 ∧ t.link.discord = false) ∧
        (∀ v w, v ∈ s.link.tally → w ∈ s.link.tally → v ≠ w →
          t.link.cycle = own + 1 ∧ t.link.discord = true ∧
          (s.link.discord = false → ∃ later, t.host.reports = postAll
            (⟨.cycleDiscord s.link.tally.length s.link.tally.dedup.length, false, own + 1, s.number⟩ :: later)
            s.host.reports) ∧
          (s.link.discord = true → s.station = .tripped → s.carrier.running = false → t.host = s.host)) ∧
        t.roster.mismatch = false ∧ t.roster.entries = s.roster.entries ∧ t.change.collection = [] ∧
        t.tables = s.tables ∧ t.number = s.number) ∧
    (onLink s = true → start < 16 → exec (.markAccepted start) s = .next s) ∧
    (s.station = .offline → s.now.left = none → exec (.markAccepted start) s = .next s)

/-- A mark in LISTENING (R81, R82, R83): SEEK gives LOCKING; an interval in the lock range gives lock and then advances the
listening cycles; outside it the attempt fails, and the third failure withdraws; the mark that ends a listening cycle from the
second on enters JOINED with the number after the taken one, and the fourth without a number withdraws; the reports of a
withdrawal carry the cycle number held then (log entry 15). An entry that finds the filtered trip line asserted trips in the same
step under a TRIP row, reports it under REPORT and does nothing more under IGNORE (R133, R135, R136); that this cause is taken
with the entry, ahead of every other of the tick, is the model's choice (log entry 37). In OFFLINE a lock failure, or a fourth
listening cycle without a number, of the tick of a withdrawal is discarded and leaves its report (R77, R90; log entry 19). -/
def Obligations.AcquisitionAdvancesByMarks : Prop :=
  (∀ (start : Nat) (s : State), s.pins.rstn = true → s.station = .listening →
    let inRange : Prop := cycleLength s - cycleLength s / 64 ≤ start ∧ start ≤ cycleLength s + 2
    let c : Instr := .markAccepted start
    (s.acq.phase = .seek →
      ∃ t : State, exec c s = .next t ∧ t.station = .listening ∧ t.link.timer = 12 ∧
        t.acq = { s.acq with phase := .locking } ∧ t.host = s.host) ∧
    (s.acq.phase = .locking → inRange →
      ∃ t : State, exec c s = .next t ∧ t.station = .listening ∧ t.link.timer = 12 ∧
        t.acq = { s.acq with phase := .listen, listening := 1 } ∧ t.host = s.host) ∧
    (s.acq.phase ≠ .seek → ¬inRange → s.acq.failedLocks < 2 →
      ∃ t : State, exec c s = .next t ∧ t.station = .listening ∧ t.link.timer = 12 ∧
        t.acq = { s.acq with phase := .locking, failedLocks := s.acq.failedLocks + 1, listening := 0, taken := none } ∧
        t.roster.entries = s.roster.entries ∧ t.host = s.host) ∧
    (s.acq.phase ≠ .seek → ¬inRange → 2 ≤ s.acq.failedLocks →
      ∃ t : State, exec c s = .next t ∧
        Withdrawn .linkMismatch [reportOf (.linkMismatch .lockFailed 0 .listening) s.number s] s t) ∧
    (s.acq.phase = .listen → inRange → s.acq.listening = 1 →
      ∃ t : State, exec c s = .next t ∧ t.station = .listening ∧ t.acq = { s.acq with listening := 2 }) ∧
    (s.acq.phase = .listen → inRange → 2 ≤ s.acq.listening → s.acq.listening ≤ 3 → s.acq.taken = none →
      ∃ t : State, exec c s = .next t ∧ t.station = .listening ∧ t.acq = { s.acq with listening := s.acq.listening + 1 }) ∧
    (s.acq.phase = .listen → inRange → s.acq.listening = 4 → s.acq.taken = none →
      ∃ t : State, exec c s = .next t ∧
        Withdrawn .linkMismatch [reportOf (.linkMismatch .noNumber 0 .listening) s.number s] s t) ∧
    (∀ v : CycleNo, s.acq.phase = .listen → inRange → 2 ≤ s.acq.listening → s.acq.taken = some v →
      let joined : State := { s with
        station := .joined
        acq := Acquisition.start
        link := { s.link with
          timer := 12, cycle := v + 1, failures := 0, shorts := 0, discord := false, rx := .waiting, rxBuffer := []
          mark := if s.link.mark = .deferred then .quiet else s.link.mark, bits := { s.link.bits with rx := .hunt } }
        roster := { s.roster with mismatch := false }
        change := { s.change with sequence := 0, viewDiscord := false }
        host := { s.host with reports := arrive s.host.reports ⟨.joinedLink
          ((List.finRange 16).countP fun k => (s.roster.entries[k]).presence == .present), false, v + 1, s.number⟩ }
        now := { s.now with arrived := true } }
      let row := rowOf s.tables .tripLine
      (s.trip.tripLine.asserted = false ∨ row.action = .ignore ∨ row.action = .respace → exec c s = .next joined) ∧
      (s.trip.tripLine.asserted = true → row.action = .report →
        exec c s = .next { joined with host := { joined.host with
          reports := arrive joined.host.reports (reportOf (.causeSeen .tripLine .joined none) s.number joined) } }) ∧
      (s.trip.tripLine.asserted = true → row.action = .trip →
        ∃ t : State, exec c s = .next t ∧ TrippedBy .tripLine row.drive s.number none joined t))) ∧
  ∀ (start : Nat) (b : Leaving) (s : State), s.pins.rstn = true → s.station = .offline → s.now.left = some b →
    b.station = .listening →
    let was : State := { s with tables := b.tables }
    let inRange : Prop := cycleLength was - cycleLength was / 64 ≤ start ∧ start ≤ cycleLength was + 2
    (b.acq.phase ≠ .seek → 2 ≤ b.acq.failedLocks → ¬inRange →
      exec (.markAccepted start) s = .next (postSelf (.linkMismatch .lockFailed 0 .offline) s)) ∧
    (b.acq.phase = .listen → b.acq.taken = none → 4 ≤ b.acq.listening → inRange →
      exec (.markAccepted start) s = .next (postSelf (.linkMismatch .noNumber 0 .offline) s))

/-- How a mark closes a change that is not applied. The cycle-number slip (R18, R61, R66): the adopted number plus one, an empty
tally, a clear discord flag, CYCLE_SLIP with the number held before, and then (log entry 16), where the slot held a change,
CHANGE_CLOSED SLIPPED naming its proposer. An OPEN change at its deadline (R62, R63, R66): it closes LAPSED naming the proposer,
or REFUSED naming the station with its own reason. The view, the live profile and the station state stay as they were. A mark of
a station whose carrier is stopped is the numbering of the cycle and then the mark event; with a change in the slot that event
is the deadline, with the collection emptied, and the numbering is the one stated first, which leaves the change and the reports
alone where the tally agrees. At a RUNNING station whose slot does not hold an AGREED change at its E, the same change follows
beside the mark re-phase, in either order (log entry 3), with the same report of the close; where the load of the re-phase raises
STARVED under TRIP, the station ends TRIPPED with the slot NONE, and the change at its deadline was closed or ABANDONED by the
trip (R65; log entry 31). -/
def Obligations.SlipAndDeadlineCloseTheChange : Prop :=
  (∀ (v : CycleNo) (s : State), v ≠ s.link.cycle → s.link.tally ≠ [] → (∀ w ∈ s.link.tally, w = v) →
    let c := s.change.slot
    let t := agreeNumber s
    let slip : Report := ⟨.cycleSlip s.link.cycle (c.state != .vacant), false, v + 1, s.number⟩
    let closed : Report := ⟨.changeClosed .slipped c.sequence c.remote c.automatic .noReason, false, v + 1, c.proposer⟩
    t.link = { s.link with cycle := v + 1, tally := [], discord := false } ∧
    (c.state = .vacant → t.change = s.change ∧ t.host.reports = postAll [slip] s.host.reports) ∧
    (c.state ≠ .vacant → t.host.reports = postAll [slip, closed] s.host.reports ∧
      (t.change.slot = Slot.vacant ∨ s.station = .running ∧ t.change.slot.automatic = true ∧ t.change.slot.state = .pending)) ∧
    t.change.view = s.change.view ∧ t.change.profile = s.change.profile ∧ t.station = s.station ∧ t.carrier = s.carrier) ∧
  (∀ s : State, s.change.slot.state = .opened → s.change.slot.effective = s.link.cycle →
    let c := s.change.slot
    let t := deadline s
    (c.verdict = none ∨ c.verdict = some .accept →
      t.host.reports = arrive s.host.reports
        (reportOf (.changeClosed .lapsed c.sequence c.remote c.automatic .noReason) c.proposer s)) ∧
    (∀ reason, reason ≠ .accept → c.verdict = some reason →
      t.host.reports = arrive s.host.reports
        (reportOf (.changeClosed .refused c.sequence c.remote c.automatic (.refusal reason)) s.number s)) ∧
    t.change.view = s.change.view ∧ t.change.profile = s.change.profile ∧ t.station = s.station ∧
    (t.change.slot = Slot.vacant ∨ s.station = .running ∧ (rowOf s.tables .peerLoss).action = .respace ∧ s.roster.lost ≠ 0 ∧
      t.change.slot.state = .pending ∧ t.change.slot.automatic = true)) ∧
  (∀ (start : Nat) (s : State), s.pins.rstn = true → onLink s = true → s.carrier.running = false → tailStart s ≤ start →
    (start < cycleLength s - cycleLength s / 64 → s.link.shorts < 2) →
    let u := numbered start s
    exec (.markAccepted start) s = .next (changeMark u) ∧ u.station = s.station ∧
    ((∀ w ∈ s.link.tally, w = s.link.cycle) → u.change = s.change ∧ u.host = s.host) ∧
    (inGroup s = true → u.change.slot.state ≠ .vacant →
      let d := deadline u
      exec (.markAccepted start) s = .next { d with change := { d.change with collection := [] } })) ∧
  ∀ (start : Nat) (s : State), s.pins.rstn = true → s.station = .running → s.carrier.running = true → tailStart s ≤ start →
    (start < cycleLength s - cycleLength s / 64 → s.link.shorts < 2) →
    let u := { numbered start s with free := s.free + 1 }
    let r := markRephase u
    let c := s.change.slot
    let trips : Prop := r.2 = true ∧ (rowOf s.tables .starved).action = .trip
    let slips : Prop := ∃ v, v ≠ s.link.cycle ∧ s.link.tally ≠ [] ∧ ∀ w ∈ s.link.tally, w = v
    let falls : Prop := ¬slips ∧ c.state = .opened ∧ c.effective = s.link.cycle + 1
    let close (o : ChangeOutcome) (x : StationNo) (why : CloseReason) : Report :=
      ⟨.changeClosed o c.sequence c.remote c.automatic why, false, u.link.cycle, x⟩
    let lapsed (report : Report) : Prop :=
      ((c.verdict = none ∨ c.verdict = some .accept) ∧ report = close .lapsed c.proposer .noReason) ∨
      ∃ reason, reason ≠ Verdict.accept ∧ c.verdict = some reason ∧ report = close .refused s.number (.refusal reason)
    let dropped (t : State) : Prop := t.change.slot = Slot.vacant ∨
      (rowOf s.tables .peerLoss).action = .respace ∧ s.roster.lost ≠ 0 ∧ t.change.slot.state = .pending ∧
        t.change.slot.automatic = true
    (slips ∨ ¬(c.state = .agreed ∧ c.effective = s.link.cycle + 1)) →
    ∃ t : State, exec (.markAccepted start) s = .next t ∧ t.link = u.link ∧
      (slips → c.state ≠ .vacant → s.host.reports.length ≤ 8 →
        close .slipped c.proposer .noReason ∈ t.host.reports) ∧
      (¬trips → t.station = .running ∧ t.carrier = r.1.carrier ∧ t.gate = r.1.gate ∧ t.setpoint = r.1.setpoint ∧
        t.change.view = s.change.view ∧ t.change.profile = s.change.profile ∧ t.change.collection = [] ∧
        (slips → c.state ≠ .vacant → dropped t) ∧
        (falls → dropped t ∧ (s.host.reports.length ≤ 8 → ∃ report, lapsed report ∧ report ∈ t.host.reports)) ∧
        (¬slips → ¬falls → t.change.slot = c)) ∧
      (trips → s.pending = [] → t.station = .tripped ∧ t.trip.first = some .starved ∧ t.change.slot = Slot.vacant ∧
        t.change.view = 0 ∧ t.gate = Gate.off ∧ t.carrier = Carrier.stopped ∧ t.setpoint = SetpointUnit.empty ∧
        (falls → s.host.reports.length ≤ 8 → ∃ report, (lapsed report ∨ report = close .abandoned c.proposer .trip) ∧
          report ∈ t.host.reports))

/-! ## Group changes at the mark -/

/-- The application of an AGREED change at the mark that begins its effective cycle (R64, R96, R98, R99, R115, R116, R127), where
that mark neither slips nor withdraws: a first or second short interval and a tally of differing numbers are such marks (R11,
R18). View, live profile and station state change in one step; a station in the new set runs its carrier from the new offset with
the new period, and makes its immediate load: the pattern's first entry, or the first record tagged with the new profile, the
stale ones before it discarded, or all legs OFF and a starve run begun. Its legs take the modes and compare values that the new
profile enables and are judged once; a gate demanded that was on stays on, one whose wait has reached the new dead time turns on,
and any other demanded one is pending. The load and the judgement follow the mark re-phase of the old carrier, or forestall it.
Another station stops its carrier, forces its gates off and, retiring, empties its queue. The mark trips the station (R136) only
on a PEER_LOSS of a member lost under the new view (R38, R39; an admitted one whose entry still reads JOINED in the group, as it
must at that mark, is not lost by it: log entry 34) or on a STARVED of the immediate load (R125, R127) or, where it was RUNNING,
of the re-phase (R65), each under a TRIP row, and on the first two always. The order of the mark event and the application is open
(log entries 3 and 31), and this holds for both. -/
def Obligations.AgreedChangeIsAppliedAtItsMark : Prop :=
  ∀ (start : Nat) (s : State), s.pins.rstn = true → OutputLaw s → s.pending = [] → inGroup s = true → tailStart s ≤ start →
    (start < cycleLength s - cycleLength s / 64 → s.link.shorts < 2) →
    (∀ v, s.link.tally ≠ [] → (∀ w ∈ s.link.tally, w = v) → v = s.link.cycle) →
    s.change.slot.state = .agreed → s.change.slot.effective = s.link.cycle + 1 →
    let c := s.change.slot
    let p := profileAt s.tables c.newProfile
    let period := cycleLength s * ticksOf s.tables.link.divisor / ratioOf p.ratio
    let applier : Prop := member s.number c.newSet = true
    let trips (cause : Cause) : Prop := (rowOf s.tables cause).action = .trip
    let enters (k : StationNo) : Prop := member k s.change.view = false ∧ s.roster.entries[k].presence = .present ∧
      s.roster.entries[k].state = some .joined ∧ s.roster.entries[k].group = s.tables.link.group
    let bereaved : Prop := applier ∧ ∃ k : StationNo, k ≠ s.number ∧ member k c.newSet = true ∧
      member k s.roster.lost = false ∧ lostEntry s.tables.link.group s.roster.entries[k] = true ∧ ¬enters k
    let starved : Prop := applier ∧ p.source = .queue ∧ s.tables.link.starveLimit = 1 ∧
      ∀ x ∈ s.setpoint.queue, x.tag ≠ c.newProfile
    let rephased := (markRephase { numbered start s with free := s.free + 1 }).1
    ∃ t : State, exec (.markAccepted start) s = .next t ∧
      (bereaved → trips .peerLoss → t.station = .tripped) ∧ (starved → trips .starved → t.station = .tripped) ∧
      (t.station = .tripped →
        (t.trip.first = some .peerLoss ∧ trips .peerLoss ∧ bereaved ∨
          t.trip.first = some .starved ∧ trips .starved ∧ (starved ∨ s.station = .running)) ∧
        t.gate = Gate.off ∧ t.carrier = Carrier.stopped ∧ t.setpoint = SetpointUnit.empty ∧ t.change.slot = Slot.vacant ∧
        t.change.view = 0 ∧ t.change.profile = 0 ∧ t.roster.entries = s.roster.entries) ∧
      (t.station ≠ .tripped →
        t.change.view = c.newSet ∧ t.change.profile = c.newProfile ∧ t.link.cycle = s.link.cycle + 1 ∧
        (t.change.slot = Slot.vacant ∨ t.change.slot.automatic = true ∧ t.change.slot.state = .pending) ∧
        (applier → t.station = .running ∧
          t.carrier.running = true ∧ t.carrier.period = period ∧ t.carrier.shape = some p.shape ∧
          t.carrier.loadSetting = some p.loadSetting ∧
          t.carrier.offset = (if p.interleave then rank s.number c.newSet * period / size c.newSet else 0) ∧
          t.carrier.position = t.carrier.offset ∧ t.gate.deadTime = p.deadTime ∧
          ∃ before : State, (before = s ∨ s.station = .running ∧ before = rephased) ∧
            (p.source = .queue →
              match before.setpoint.queue.dropWhile (fun x => x.tag != c.newProfile) with
              | [] => t.setpoint = { SetpointUnit.empty with
                  starveRun := true, starve := if 1 ≤ s.tables.link.starveLimit then 1 else 0 }
              | r :: rest => t.setpoint = { SetpointUnit.empty with queue := rest, live := r.legs }) ∧
            (p.source = .pattern → ∀ h : p.patternStart < 64, 1 ≤ p.patternLength →
              t.setpoint = { SetpointUnit.empty with
                queue := before.setpoint.queue, live := s.tables.pattern[p.patternStart]
                position := if p.patternRepeat = true ∧ p.patternLength = 1 then 0 else 1 }) ∧
            (1 ≤ p.deadTime → ∀ leg : Leg,
              let b := before.gate.legs.get leg
              let l := t.gate.legs.get leg
              let live := t.setpoint.live.get leg
              let wanted := demand l.mode l.compare (carrierNow t)
              l.mode = (if p.enables.get leg then live.mode else .off) ∧
              l.compare = (if p.enables.get leg then live.compare else 0) ∧
              ∀ side,
                (gateOn l side = true ↔
                  wanted = some side ∧ (gateOn b side = true ∨ b.pending = some side ∧ p.deadTime ≤ b.count)) ∧
                (l.pending = some side ↔ wanted = some side ∧ gateOn l side = false) ∧
                (l.pending = some side → l.count = if b.pending = some side then b.count else 0))) ∧
        (¬applier → t.station = .joined ∧ t.carrier = Carrier.stopped ∧ t.gate = Gate.off ∧
          t.setpoint = (if s.station = .running then SetpointUnit.empty
            else { SetpointUnit.empty with queue := s.setpoint.queue })) ∧
        (∀ k, member k t.roster.lost = true ↔ isLost t k = true ∧ ¬enters k) ∧ t.roster.entries = s.roster.entries ∧
        (s.host.reports.length ≤ 8 →
          ⟨.changeClosed .applied c.sequence c.remote c.automatic .noReason, false, s.link.cycle + 1, c.proposer⟩ ∈
            t.host.reports))

/-- The view refresh of a JOINED station with its slot NONE at a mark (R71, R72): it takes the pair that every frame of the
collection advertises, or the empty one without a frame, and clears the view-discord flag; discord or a set that contains it
leaves the view and posts VIEW_DISCORD once. An accepted mark of such a station is the numbering of the cycle, which leaves the
Change Unit alone, and then this refresh. -/
def Obligations.JoinedViewIsRefreshed : Prop :=
  (∀ s : State, s.station = .joined → s.change.slot.state = .vacant →
    let collected := s.change.collection
    let t := changeMark s
    t.station = .joined ∧ t.change.collection = [] ∧ t.change.slot = s.change.slot ∧
    (collected = [] → t.change.view = 0 ∧ t.change.profile = 0 ∧ t.change.viewDiscord = false) ∧
    (∀ pair, collected ≠ [] → (∀ q ∈ collected, q = pair) → member s.number pair.1 = false →
      t.change.view = pair.1 ∧ t.change.profile = pair.2 ∧ t.change.viewDiscord = false ∧ t.host = s.host ∧
        t.roster.lost = setOf (isLost t)) ∧
    ((∃ q ∈ collected, ∃ q' ∈ collected, q ≠ q') ∨
        (∃ pair ∈ collected, (∀ q ∈ collected, q = pair) ∧ member s.number pair.1 = true) →
      t.change.view = s.change.view ∧ t.change.profile = s.change.profile ∧ t.change.viewDiscord = true ∧
        t.host.reports = (if s.change.viewDiscord then s.host.reports else arrive s.host.reports
          (reportOf (.viewDiscord collected.length (collected.any fun q => member s.number q.1)) s.number s)))) ∧
  ∀ (start : Nat) (s : State), s.pins.rstn = true → s.station = .joined → s.carrier.running = false →
    s.change.slot.state = .vacant → tailStart s ≤ start →
    (start < cycleLength s - cycleLength s / 64 → s.link.shorts < 2) →
    ∃ u : State, exec (.markAccepted start) s = .next (changeMark u) ∧ u.station = .joined ∧ u.change = s.change ∧
      u.roster = { s.roster with mismatch := false } ∧ u.number = s.number ∧ u.tables = s.tables ∧
      (s.link.tally = [] → u.host = s.host ∧ u.link.cycle = s.link.cycle + 1)

/-! ## Proposals and votes -/

/-- PROPOSE (R48, R49, R164): its five checks in order, and the PENDING local proposal it leaves in the slot, whose electorate is
the station itself and the peers in standing of the union of the view and the new set. That E is 0 in a PENDING slot, where R46
calls it unassigned, is the model's choice (log entry 28). -/
def Obligations.ProposeChecksThenPends : Prop :=
  ∀ s : State, s.pins.rstn = true →
    let newSet : StationSet := s.host.args[1] ++ s.host.args[0]
    let p := s.host.args[2]
    let newProfile : ProfileNo := p.setWidth 3
    let fits : Prop := (newSet = 0 ↔ p = 0) ∧ p.toNat ≤ 7 ∧ (p ≠ 0 → (profileAt s.tables newProfile).configured = true)
    let stands (k : StationNo) : Prop := k = s.number ∨ inStanding s k = true
    let same : Prop := newSet = s.change.view ∧ newProfile = s.change.profile
    let refused (r : ResultCode) (detail : Byte) : Out :=
      .next { s with host := { s.host with lastCommand := 0x04, result := r, detail := detail } }
    (inGroup s = false → exec .propose s = refused .refusedState (stateDetail s.station)) ∧
    (inGroup s = true → s.change.slot.state ≠ .vacant →
      exec .propose s = refused .busy ((slotCode s.change.slot.state).setWidth 8)) ∧
    (inGroup s = true → s.change.slot.state = .vacant → ¬fits → exec .propose s = refused .refusedProfile p) ∧
    (∀ k : StationNo, inGroup s = true → s.change.slot.state = .vacant → fits → member k newSet = true → ¬stands k →
      (∀ j : StationNo, j < k → member j newSet = true → stands j) →
      exec .propose s = refused .refusedMember (natByte k.val)) ∧
    (inGroup s = true → s.change.slot.state = .vacant → fits → (∀ k, member k newSet = true → stands k) → same →
      exec .propose s = refused .refusedNoChange 0) ∧
    (inGroup s = true → s.change.slot.state = .vacant → fits → (∀ k, member k newSet = true → stands k) → ¬same →
      ∃ electorate : StationSet,
        (∀ k, member k electorate = true ↔ (member k s.change.view = true ∨ member k newSet = true) ∧ stands k) ∧
        exec .propose s = .next { s with
          host := { s.host with lastCommand := 0x04, result := .done, detail := 0 }
          change := { s.change with slot :=
            { state := .pending, remote := false, automatic := false, proposer := s.number, sequence := none,
              newSet := newSet, newProfile := newProfile, baseSet := s.change.view, baseProfile := s.change.profile,
              electorate := electorate, effective := 0, accepts := 0, verdict := none, firstSeen := s.link.cycle } } })

/-- The verdict on a remote proposal (R54): LATE, BASIS, MEMBER, PROFILE, HELD in this order, and ACCEPT when none of them holds. -/
def Obligations.VerdictTestsInOrder : Prop :=
  ∀ (s : State) (f : Frame) (p : Proposal),
    let late : Prop := (p.effective - s.link.cycle).toNat < 2
    let basis : Prop := ¬(f.set = s.change.view ∧ f.profile = s.change.profile)
    let unfit : Prop := ∃ k : StationNo, k ≠ s.number ∧ member k p.newSet = true ∧
      (s.roster.entries[k].presence = .absent ∨ s.roster.entries[k].presence = .present ∧
        (s.roster.entries[k].state = some .tripped ∨ s.roster.entries[k].group ≠ s.tables.link.group))
    let unconfigured : Prop := member s.number p.newSet = true ∧ (profileAt s.tables p.newProfile).configured = false
    (verdictOn s f p = .late ↔ late) ∧
    (verdictOn s f p = .basis ↔ ¬late ∧ basis) ∧
    (verdictOn s f p = .member ↔ ¬late ∧ ¬basis ∧ unfit) ∧
    (verdictOn s f p = .profile ↔ ¬late ∧ ¬basis ∧ ¬unfit ∧ unconfigured) ∧
    (verdictOn s f p = .held ↔ ¬late ∧ ¬basis ∧ ¬unfit ∧ ¬unconfigured ∧ s.change.hold = true) ∧
    (verdictOn s f p = .accept ↔ ¬late ∧ ¬basis ∧ ¬unfit ∧ ¬unconfigured ∧ s.change.hold = false)

/-- A proposal part at the Change Unit (R51, R52, R53): ignored unless its E is ahead by 1 to 15 and the slot is NONE or
PENDING; otherwise adopted, after a PENDING proposal has closed WITHDRAWN, or silently where it is the same automatic DROP. The
adopted change is AGREED at once when every elector but the proposer is this accepting station; that a tracking station judges
its tally there too is log entry 13. A valid frame with such a part, of a RUNNING or JOINED sender of the own group that raises
no loss and no mismatch, brings it there (R28, R29, R52). -/
def Obligations.ProposalIsAdoptedOrIgnored : Prop :=
  (∀ (f : Frame) (p : Proposal) (s : State),
    let c := s.change.slot
    let ahead : Prop := 1 ≤ (p.effective - s.link.cycle).toNat ∧ (p.effective - s.link.cycle).toNat ≤ 15
    let t := takeProposal f p s
    (¬ahead ∨ c.state = .opened ∨ c.state = .agreed → t = s) ∧
    (ahead → c.state = .vacant ∨ c.state = .pending →
      let verdict := if member s.number p.electorate then some (verdictOn s f p) else none
      let accepts : StationSet := if verdict = some .accept then single s.number else 0
      let complete : Prop := ∀ k, member k p.electorate = true → k ≠ f.sender → member k accepts = true
      let opened := reportOf (.changeOpened (p.effective - s.link.cycle).toNat p.sequence true false verdict) f.sender s
      let withdrawn := reportOf (.changeClosed .withdrawn c.sequence c.remote c.automatic .contended) f.sender s
      let silent : Prop := c.automatic = true ∧ c.newSet = p.newSet ∧ c.newProfile = p.newProfile
      t.change = { s.change with slot :=
        { state := t.change.slot.state, remote := true, automatic := false, proposer := f.sender, sequence := some p.sequence,
          newSet := p.newSet, newProfile := p.newProfile, baseSet := f.set, baseProfile := f.profile,
          electorate := p.electorate, effective := p.effective, accepts := accepts, verdict := verdict,
          firstSeen := s.link.cycle } } ∧
      (complete → t.change.slot.state = .agreed) ∧ (¬complete → t.change.slot.state = .opened) ∧
      (c.state = .vacant ∨ silent → t.host.reports = postAll [opened] s.host.reports) ∧
      (c.state = .pending → ¬silent → t.host.reports = postAll [withdrawn, opened] s.host.reports))) ∧
  ∀ (f : Frame) (p : Proposal) (s : State), s.pins.rstn = true → ValidInWindow f s → Quiet f s → f.part = .proposal p →
    exec (.frameReceived f.sender (encodeFrame f)) s = .next (takeProposal f p (heard f s))

/-- A vote part at the Change Unit (R56, R57, R58): on an OPEN slot an accept of another elector for the slot's identity joins
accepts seen and may complete the tally, a refusal closes the change REFUSED, and a vote on another identity closes the
proposer's own change CONFLICT; a vote from outside the electorate, or on a slot that is not OPEN, does nothing. A valid frame
with such a part, of a RUNNING or JOINED sender of the own group that raises no loss and no mismatch, brings it
there (R28, R29, R52). -/
def Obligations.VoteCountsRefusesOrConflicts : Prop :=
  (∀ (f : Frame) (v : Vote) (s : State),
    let c := s.change.slot
    let elector : Prop := member f.sender c.electorate = true
    let names : Prop := c.proposer = v.proposer ∧ c.sequence = some v.sequence
    let t := takeVote f v s
    let closedWith (outcome : ChangeOutcome) (reason : CloseReason) : Prop :=
      t.host.reports = arrive s.host.reports
        (reportOf (.changeClosed outcome c.sequence c.remote c.automatic reason) f.sender s) ∧
      (t.change.slot = Slot.vacant ∨ s.station = .running ∧ t.change.slot.state = .pending ∧ t.change.slot.automatic = true)
    (c.state ≠ .opened ∨ ¬elector → t = s) ∧
    (c.state = .opened → elector → names → v.verdict = .accept → f.sender ≠ c.proposer →
      t.host = s.host ∧
      t.change.slot = { c with state := t.change.slot.state, accepts := c.accepts ||| single f.sender } ∧
      (t.change.slot.state = .agreed ↔
        ∀ k, member k c.electorate = true → k ≠ c.proposer → member k c.accepts = true ∨ k = f.sender) ∧
      (t.change.slot.state = .agreed ∨ t.change.slot.state = .opened)) ∧
    (c.state = .opened → elector → names → v.verdict ≠ .accept → closedWith .refused (.refusal v.verdict)) ∧
    (c.state = .opened → elector → ¬names → c.remote = false → closedWith .conflict .noReason) ∧
    (c.state = .opened → elector → ¬names → c.remote = true → t = s)) ∧
  ∀ (f : Frame) (v : Vote) (s : State), s.pins.rstn = true → ValidInWindow f s → Quiet f s → f.part = .vote v →
    exec (.frameReceived f.sender (encodeFrame f)) s = .next (takeVote f v (heard f s))

/-- A departure or loss notice at the slot (R59, R60): a PENDING or OPEN change closes PROPOSER_LOST when the station was its
remote proposer and MEMBER_LOST when it was another elector, with the notice's cause as reason; an AGREED change and one that the
station takes no part in are unchanged. A PENDING automatic DROP is withdrawn with no report, and the re-check follows at once, so
that a DROP still due is built again from the lost set as it stands (R60). The end of a window in which a JOINED station misses a
peer in standing for the last time brings such a notice, of an absence, after PEER_ABSENT (R34, R37). -/
def Obligations.NoticeClosesTheChange : Prop :=
  (∀ (x : StationNo) (why : NoticeCause) (loss : Bool) (s : State),
    let c := s.change.slot
    let t := takeNotice x why loss s
    let live : Prop := c.state = .opened ∨ c.state = .pending ∧ c.automatic = false
    let proposer : Prop := c.remote = true ∧ c.proposer = x
    let elector : Prop := member x c.electorate = true ∧ c.proposer ≠ x
    let closedWith (outcome : ChangeOutcome) : Prop :=
      t.host.reports = arrive s.host.reports
        (reportOf (.changeClosed outcome c.sequence c.remote c.automatic (.notice why)) x s) ∧
      (t.change.slot = Slot.vacant ∨ s.station = .running ∧ t.change.slot.state = .pending ∧ t.change.slot.automatic = true)
    (live → proposer → closedWith .proposerLost) ∧
    (live → ¬proposer → elector → closedWith .memberLost) ∧
    (live → ¬proposer → ¬elector → t = s) ∧
    (c.state = .agreed → t = s) ∧
    (c.state = .pending → c.automatic = true →
      let due : Prop := s.station = .running ∧ (rowOf s.tables .peerLoss).action = .respace ∧ s.roster.lost ≠ 0
      t = { s with change := { s.change with slot := t.change.slot } } ∧
      (¬due → t.change.slot = Slot.vacant) ∧
      (due → t = recheck { s with change := { s.change with slot := Slot.vacant } } ∧ t.change.slot.state = .pending ∧
        t.change.slot.automatic = true ∧ t.change.slot.proposer = s.number ∧
        ∀ k, member k t.change.slot.newSet = true ↔ member k s.change.view = true ∧ member k s.roster.lost = false))) ∧
  ∀ (k : StationNo) (s : State), s.pins.rstn = true → s.station = .joined → k ≠ s.number → k.val < stationCount s →
    s.link.rx ≠ .handedOver → inStanding s k = true → s.tables.link.missLimit ≤ s.roster.entries[k].misses + 1 →
    ∃ (u : State) (loss : Bool), exec (.windowEnd k) s = .next (takeNotice k .absence loss u) ∧ u.station = .joined ∧
      u.change = s.change ∧ u.tables = s.tables ∧ u.number = s.number ∧
      u.host.reports = arrive s.host.reports
        (reportOf (.peerAbsent s.roster.entries[k].lastHeard (member k s.change.view)) k s)

/-- The automatic DROP at a re-check (R68): it is built exactly where a RUNNING station whose PEER_LOSS row gives RESPACE has
its slot NONE and a lost member; it removes the lost members from the view, keeps the station, the profile and the base, and is
voted on by the station itself and the peers in standing of the new set. The end of a window in which such a station loses a
member to its absence makes this re-check (R34, R38, R59, R70). -/
def Obligations.AutomaticDropRemovesTheLost : Prop :=
  (∀ s : State, ViewLaw s →
    let due : Prop := s.station = .running ∧ (rowOf s.tables .peerLoss).action = .respace ∧ s.change.slot.state = .vacant ∧
      s.roster.lost ≠ 0
    (¬due → recheck s = s) ∧
    (due →
      let c := (recheck s).change.slot
      recheck s = { s with change := { s.change with slot := c } } ∧
      c.state = .pending ∧ c.remote = false ∧ c.automatic = true ∧ c.proposer = s.number ∧ c.sequence = none ∧
      (∀ k, member k c.newSet = true ↔ member k s.change.view = true ∧ member k s.roster.lost = false) ∧
      member s.number c.newSet = true ∧ c.newProfile = s.change.profile ∧ c.newProfile ≠ 0 ∧
      c.baseSet = s.change.view ∧ c.baseProfile = s.change.profile ∧ c.firstSeen = s.link.cycle ∧
      (∀ k, member k c.electorate = true ↔ member k c.newSet = true ∧ (k = s.number ∨ inStanding s k = true)))) ∧
  ∀ (k : StationNo) (s : State), s.pins.rstn = true → s.station = .running → k ≠ s.number → k.val < stationCount s →
    s.link.rx ≠ .handedOver → s.roster.entries[k].presence = .present →
    s.tables.link.missLimit ≤ s.roster.entries[k].misses + 1 → member k s.change.view = true →
    member k s.roster.lost = false → (rowOf s.tables .peerLoss).action = .respace → s.change.slot.state = .vacant →
    ∃ u : State, exec (.windowEnd k) s = .next (recheck u) ∧ u.station = .running ∧ u.change = s.change ∧
      u.roster.lost = s.roster.lost ||| single k ∧ u.roster.entries[k].presence = .absent ∧ u.tables = s.tables ∧
      u.number = s.number ∧ u.link.cycle = s.link.cycle

/-! ## Windows and frames -/

/-- The frame check (R20, R21): the CRC of "123456789" is 29B1 hexadecimal, and every frame decodes from the bytes it is encoded
into, with a check that matches. Those bytes are spelled out field by field (R20), the check of all the bytes before it last, low
byte first; and so are the ten bits of a byte on the link, dominant for 0: the start bit, the eight data bits with the least
significant first, the stop bit (R1, R3). -/
def Obligations.FrameEncodingRoundTrips : Prop :=
  crc ((List.range 9).map fun i => BitVec.ofNat 8 (49 + i)) = 0x29B1#16 ∧
    (∀ f : Frame, decodeFrame (encodeFrame f) = some f ∧ crcMatches (encodeFrame f) = true ∧
      (encodeFrame f).length = (match f.part with | .base => 9 | .proposal _ => 16 | .vote _ => 11) ∧
      frameLength (frameByte0 f) = some (encodeFrame f).length) ∧
    (∀ f : Frame,
      let low (w : Word16) : Nat := w.toNat % 256
      let high (w : Word16) : Nat := w.toNat / 256
      let state : Nat := match f.state with | .joined => 1 | .running => 2 | .tripped => 3
      let flags : Nat := match f.part with | .base => 0 | .proposal _ => 64 | .vote _ => 128
      let verdict (v : Verdict) : Nat := match v with
        | .accept => 0 | .late => 1 | .profile => 2 | .held => 3 | .basis => 4 | .member => 5
      let part : List Nat := match f.part with
        | .base => []
        | .proposal p => [p.sequence.toNat + 16 * p.newProfile.toNat, low p.newSet, high p.newSet, low p.electorate,
            high p.electorate, low p.effective, high p.effective]
        | .vote v => [v.proposer.val + 16 * v.sequence.toNat, verdict v.verdict]
      let body : List Nat := [f.sender.val + 16 * state + flags, f.linkCode.toNat, low f.cycle, high f.cycle,
        f.group.toNat + 4 * f.profile.toNat + 32 * f.tripClass.toNat, low f.set, high f.set] ++ part
      let check := crc (body.map (BitVec.ofNat 8))
      (encodeFrame f).map (·.toNat) = body ++ [low check, high check]) ∧
    ∀ b : Byte, byteBits b = [true] ++ (List.range 8).map (fun i => !b.getLsbD i) ++ [false]

/-- The receiver reads the frame that a sender puts on the link (R1, R3, R12, R14): its bits, from window offset 8 after a recessive
bit, make the receiver complete exactly the bytes of the frame at the end of the last stop bit. -/
def Obligations.ReceiverAssemblesSentFrame : Prop :=
  ∀ f : Frame,
    receiveBits ((encodeFrame f).flatMap byteBits) false 8 .hunt [] .nothing = (.done, encodeFrame f, .frame)

/-- A G316 that obeys its own laws sends no frame that its peers refuse (R22, R27): on the link its frame meets no malformed
condition, and in its window every station with the same link table takes it as valid. -/
def Obligations.OwnFrameIsAcceptedByPeers : Prop :=
  ∀ s : State, ViewLaw s → RecordLaw s → FrameLaw s → onLink s = true →
    malformed s.tables.link.count (ownFrame s) = false ∧
    checkFrame s.tables.link s.number (encodeFrame (ownFrame s)) = .valid (ownFrame s)

/-- OWN_WINDOW_START (R12, R22, R23, R24, R26, R50): the frame of the state at the window start, with the trip class of the first
cause in TRIPPED alone, goes into the transmit buffer, whose bytes, in their order, are the bits that are put out, none of them
before window offset 8; a PENDING proposal takes the sequence of the counter, which advances, and E = the current cycle plus the
lead, and is OPEN, or AGREED where it has no other elector, with CHANGE_OPENED posted. Where no proposal is PENDING only the link
changes: an OPEN or AGREED local proposal is repeated, a remote one that the station votes on gives its vote with the slot's
identity (R25), and any other station sends the base frame. -/
def Obligations.OwnWindowBuildsTheFrame : Prop :=
  ∀ s : State, s.pins.rstn = true → onLink s = true →
    ∃ t : State, exec .ownWindowStart s = .next t ∧ t.link.txBuffer = encodeFrame (ownFrame t) ∧
      (ownFrame t).sender = s.number ∧ (ownFrame t).cycle = s.link.cycle ∧ (ownFrame t).group = s.tables.link.group ∧
      (ownFrame t).linkCode = s.tables.link.linkCode ∧ (ownFrame t).set = s.change.view ∧
      (ownFrame t).profile = s.change.profile ∧
      t.link = { s.link with
        timer := 16 + 176 * s.number.val, txBuffer := t.link.txBuffer, readbackBad := false
        bits := { s.link.bits with txBits := t.link.txBuffer.flatMap byteBits, sending := false } } ∧
      (ownFrame t).state = (match s.station with | .running => .running | .tripped => .tripped | _ => .joined) ∧
      (s.station ≠ .tripped → (ownFrame t).tripClass = 0) ∧
      (s.station = .tripped → ∀ cause : Cause, s.trip.first = some cause →
        (ownFrame t).tripClass = (match cause with
          | .fault _ => 1 | .tripLine => 2 | .peerLoss => 3 | .mismatch => 4 | .starved => 5 | .host => 6)) ∧
      (¬(inGroup s = true ∧ s.change.slot.state = .pending) → t = { s with link := t.link } ∧
        let c := s.change.slot
        let held : Prop := inGroup s = true ∧ c.state ≠ .vacant
        let votes : Prop := held ∧ c.remote = true ∧ c.verdict ≠ none ∧ member s.number c.electorate = true
        (∀ q, held → c.remote = false → c.sequence = some q → (ownFrame t).part = .proposal
          { sequence := q, newProfile := c.newProfile, newSet := c.newSet, electorate := c.electorate,
            effective := c.effective }) ∧
        (∀ q verdict, votes → c.sequence = some q → c.verdict = some verdict →
          (ownFrame t).part = .vote { proposer := c.proposer, sequence := q, verdict := verdict }) ∧
        (¬held ∨ c.remote = true ∧ ¬votes → (ownFrame t).part = .base)) ∧
      (inGroup s = true → s.change.slot.state = .pending →
        let c := s.change.slot
        let e := s.link.cycle + BitVec.ofNat 16 s.tables.link.lead
        let alone : Prop := ∀ k, member k c.electorate = true → k ≠ c.proposer → member k c.accepts = true
        t.change = { s.change with
          sequence := s.change.sequence + 1
          slot := { c with state := t.change.slot.state, sequence := some s.change.sequence, effective := e } } ∧
        (alone → t.change.slot.state = .agreed) ∧ (¬alone → t.change.slot.state = .opened) ∧
        t.host = { s.host with reports := arrive s.host.reports (reportOf
          (.changeOpened (e - s.link.cycle).toNat s.change.sequence false c.automatic none) s.number s) } ∧
        (c.remote = false → (ownFrame t).part = .proposal
          { sequence := s.change.sequence, newProfile := c.newProfile, newSet := c.newSet, electorate := c.electorate,
            effective := e }))

/-- FRAME_RECEIVED on the link (R14, R15, R27, R28, R33): a valid frame in the window of another station is handed over once,
its cycle number joins the tally, and the sender's entry takes its fields with the miss count 0, while no other entry and no
table changes; bytes that name no valid frame of the window, a foreign link code included, leave nothing on the link but an
ended reception; and after the end of a frame nothing more of the window is received. The sender's first valid frame posts
PEER_PRESENT, ahead of what follows from it. A frame of the own group that advertises RUNNING, and no other, joins the refresh
collection (R29); where the cause that the frame raises waits for other events of the tick, so does that (log entry 32). In the
own window (R13) the frame ends the reception, and bytes other than those
sent, or that fail a check, fail the readback. In OFFLINE nothing happens, but for log entry 19. -/
def Obligations.FrameFillsTheEntryOrLeavesNoTrace : Prop :=
  (∀ (f : Frame) (s : State), s.pins.rstn = true → onLink s = true → f.sender ≠ s.number →
    f.sender.val < stationCount s → s.link.rx = .waiting → f.linkCode = s.tables.link.linkCode →
    malformed s.tables.link.count f = false →
    ∃ t : State, exec (.frameReceived f.sender (encodeFrame f)) s = .next t ∧
      t.roster.entries[f.sender] =
        { presence := .present, state := some f.state, group := f.group, profile := f.profile, set := f.set,
          tripClass := f.tripClass, lastHeard := f.cycle, misses := 0 } ∧
      (∀ k : StationNo, k ≠ f.sender → t.roster.entries[k] = s.roster.entries[k]) ∧
      t.link = { s.link with rx := .handedOver, tally := s.link.tally ++ [f.cycle] } ∧
      t.tables = s.tables ∧ t.number = s.number ∧ t.acq = s.acq ∧
      (s.roster.entries[f.sender].presence ≠ .present → ∃ later, t.host.reports = postAll
        (reportOf (.peerPresent f.state f.group (s.roster.entries[f.sender].presence == .absent)) f.sender s :: later)
        s.host.reports) ∧
      (t.now.waiting = s.now.waiting ∧ t.change.collection = (if f.group = s.tables.link.group ∧ f.state = .running then
          s.change.collection ++ [(f.set, f.profile)] else s.change.collection) ∨
        s.pending ≠ [] ∧ t.change.collection = s.change.collection ∧
          ∃ r : Raised, (r.cause = .peerLoss ∨ r.cause = .mismatch) ∧ r.subject = f.sender ∧
            t.now.waiting = s.now.waiting ++ [.cause r, .content f])) ∧
  (∀ (k : StationNo) (bytes : List Byte) (s : State), s.pins.rstn = true →
    (onLink s = true → k ≠ s.number → k.val < stationCount s → s.link.rx = .waiting →
      (∀ f, checkFrame s.tables.link k bytes ≠ .valid f) →
      exec (.frameReceived k bytes) s = .next { s with link := { s.link with rx := .spoiled } }) ∧
    (onLink s = true → k = s.number → k.val < stationCount s → s.link.rx = .waiting →
      let good : Prop := bytes = s.link.txBuffer ∧ ∃ f, checkFrame s.tables.link k bytes = .valid f
      (good → exec (.frameReceived k bytes) s = .next { s with link := { s.link with rx := .spoiled } }) ∧
      (¬good →
        exec (.frameReceived k bytes) s = .next { s with link := { s.link with rx := .spoiled, readbackBad := true } })) ∧
    (s.link.rx ≠ .waiting ∨ receiving s = false ∨ stationCount s ≤ k.val → s.station ≠ .offline ∨ s.now.left = none →
      exec (.frameReceived k bytes) s = .next s))

/-- A frame in LISTENING with lock (R16, R30, R33, R82, R85): a valid one from another station fills its entry in the Roster alone,
with PEER_PRESENT where the sender was not PRESENT (under the number held before: log entry 27), and may give the taken cycle
number; one in the window of the own number withdraws the station with NUMBER_TAKEN, and one that fails the link
code alone with LINK_MISMATCH. In OFFLINE such a claim of the tick of a withdrawal is discarded and leaves its report, judged by the
tables that were frozen then (R77, R79, R90; log entry 19). -/
def Obligations.ListeningFrameIndications : Prop :=
  (∀ (f : Frame) (s : State), s.pins.rstn = true → s.station = .listening → s.acq.phase = .listen → s.link.rx = .waiting →
    f.sender.val < stationCount s → malformed s.tables.link.count f = false →
    let c : Instr := .frameReceived f.sender (encodeFrame f)
    let same : Prop := f.linkCode = s.tables.link.linkCode
    let before := s.roster.entries[f.sender].presence
    (same → f.sender ≠ s.number →
      ∃ t : State, exec c s = .next t ∧ t.station = .listening ∧ t.change = s.change ∧ t.link.tally = s.link.tally ∧
        t.roster = { s.roster with entries := t.roster.entries } ∧
        t.roster.entries[f.sender] =
          { presence := .present, state := some f.state, group := f.group, profile := f.profile, set := f.set,
            tripClass := f.tripClass, lastHeard := f.cycle, misses := 0 } ∧
        (∀ k : StationNo, k ≠ f.sender → t.roster.entries[k] = s.roster.entries[k]) ∧
        (before = .present → t.host = s.host) ∧
        (before ≠ .present → t.host.reports = arrive s.host.reports
          (reportOf (.peerPresent f.state f.group (before == .absent)) f.sender s)) ∧
        (2 ≤ s.acq.listening → s.acq.taken = none → t.acq.taken = some f.cycle ∧ t.link.cycle = f.cycle) ∧
        (s.acq.listening < 2 ∨ s.acq.taken ≠ none → t.acq = s.acq ∧ t.link.cycle = s.link.cycle)) ∧
    (same → f.sender = s.number →
      ∃ t : State, exec c s = .next t ∧ Withdrawn .numberTaken [reportOf .numberTaken s.number s] s t) ∧
    (¬same →
      ∃ t : State, exec c s = .next t ∧
        Withdrawn .linkMismatch [reportOf (.linkMismatch .foreignCode f.linkCode .listening) s.number s] s t)) ∧
  ∀ (f : Frame) (b : Leaving) (s : State), s.pins.rstn = true → s.station = .offline → s.now.left = some b →
    b.station = .listening → b.acq.phase = .listen → b.link.rx = .waiting → f.sender.val < countOf b.tables.link.count →
    malformed b.tables.link.count f = false →
    let c : Instr := .frameReceived f.sender (encodeFrame f)
    (f.linkCode = b.tables.link.linkCode → f.sender = s.number → exec c s = .next (postSelf .numberTaken s)) ∧
    (f.linkCode ≠ b.tables.link.linkCode →
      exec c s = .next (postSelf (.linkMismatch .foreignCode f.linkCode .offline) s))

/-- WINDOW_END of another station's window (R14, R34): without a valid frame a PRESENT entry is aged, and at the miss limit it
becomes ABSENT and PEER_ABSENT is posted, ahead of what follows from it; UNSEEN and ABSENT entries, and every entry after a
valid frame, stay as they are; reception begins anew. -/
def Obligations.WindowEndAgesTheEntry : Prop :=
  ∀ (k : StationNo) (s : State), s.pins.rstn = true → receiving s = true → k ≠ s.number → k.val < stationCount s →
    let e := s.roster.entries[k]
    let missed : Prop := s.link.rx ≠ .handedOver
    ∃ t : State, exec (.windowEnd k) s = .next t ∧ t.link.rx = .waiting ∧ t.link.timer = 16 + 176 * (k.val + 1) ∧
      t.link.rxBuffer = [] ∧ t.link.tally = s.link.tally ∧
      (∀ j : StationNo, j ≠ k → t.roster.entries[j] = s.roster.entries[j]) ∧
      (¬missed ∨ e.presence ≠ .present → t.roster.entries[k] = e ∧ t.host = s.host) ∧
      (missed → e.presence = .present → e.misses + 1 < s.tables.link.missLimit →
        t.roster.entries[k] = { e with misses := e.misses + 1 } ∧ t.host = s.host) ∧
      (missed → e.presence = .present → s.tables.link.missLimit ≤ e.misses + 1 →
        t.roster.entries[k] = { e with presence := .absent, misses := s.tables.link.missLimit } ∧
        ∃ later, t.host.reports = postAll
          (reportOf (.peerAbsent e.lastHeard (member k s.change.view)) k s :: later) s.host.reports)

/-- The readback (R13, R15). WINDOW_END of the own window: GOOD, where the whole frame has been read back without a difference
or an error, clears the failure count; FAILED, where one was met or the read-back frame has not ended with its window, counts,
and at the miss limit WINDOW_CONFLICT is posted and the station withdraws; a window in which nothing was sent is not judged (log
entry 12). In OFFLINE that claim, made in the tick of a withdrawal, leaves its report (R77, R90; log entry 19).
READBACK_MISMATCH: the first differing bit ends the transmission, releases LTX for the rest of the window and marks the
readback; where nothing was sent it does nothing (log entry 8). -/
def Obligations.ReadbackStopsAndIsJudged : Prop :=
  (∀ s : State, s.pins.rstn = true → onLink s = true → s.number.val < stationCount s →
    let c : Instr := .windowEnd s.number
    let m := s.tables.link.missLimit
    let bad : Prop := s.link.readbackBad = true ∨ s.link.rx = .waiting
    (s.link.txBuffer ≠ [] → ¬bad →
      ∃ t : State, exec c s = .next t ∧ t.link.readback = .good ∧ t.link.failures = 0 ∧ t.link.txBuffer = [] ∧
        t = { s with link := t.link }) ∧
    (s.link.txBuffer ≠ [] → bad → s.link.failures + 1 < m →
      ∃ t : State, exec c s = .next t ∧ t.link.readback = .failed ∧ t.link.failures = s.link.failures + 1 ∧
        t.link.txBuffer = [] ∧ t = { s with link := t.link }) ∧
    (s.link.txBuffer ≠ [] → bad → m ≤ s.link.failures + 1 →
      ∃ t : State, exec c s = .next t ∧
        Withdrawn .windowConflict [reportOf (.windowConflict (s.link.failures + 1) s.station) s.number s] s t) ∧
    (s.link.txBuffer = [] → ∃ t : State, exec c s = .next t ∧ t.link.failures = s.link.failures ∧
      t.link.readback = s.link.readback ∧ t = { s with link := t.link })) ∧
  (∀ (b : Leaving) (s : State), s.pins.rstn = true → s.station = .offline → s.now.left = some b →
    b.station = .joined ∨ b.station = .running ∨ b.station = .tripped → s.number.val < countOf b.tables.link.count →
    b.link.txBuffer ≠ [] → b.link.readbackBad = true ∨ b.link.rx = .waiting →
    b.tables.link.missLimit ≤ b.link.failures + 1 →
    exec (.windowEnd s.number) s = .next (postSelf (.windowConflict (b.link.failures + 1) .offline) s)) ∧
  (∀ s : State, s.pins.rstn = true →
    (onLink s = true → s.link.txBuffer ≠ [] →
      ∃ t : State, exec .readbackMismatch s = .next t ∧ t.link.readbackBad = true ∧
        (s.link.mark ≠ .driving → ltxDominant t = false) ∧
        t = { s with link := { s.link with
          readbackBad := true, bits := { s.link.bits with txBits := [], sending := false } } }) ∧
    (onLink s = false ∨ s.link.txBuffer = [] → exec .readbackMismatch s = .next s))

/-- RECEPTION_ERROR and LINE_DISTURBANCE (R8, R13, R14, R15, R16) of the window in progress: before its frame is complete the
window is spoiled, and in the own window on the link that counts as a readback mismatch. In LISTENING with lock a reception
error spoils the window too, and every run of twelve bit times is a mark, so that there is no disturbance there. A window that
is not in progress, one that is not received, and one whose frame has ended, they leave alone: a run of window k that reaches
its twelfth bit time after the end of that window does nothing to the window that follows. That these two commands do nothing
where their window is not in progress, not received, or at the end of its frame is deduced (log entry 8). A run that began in a
window is such a disturbance. -/
def Obligations.DisturbanceSpoilsTheWindow : Prop :=
  ∀ (k : StationNo) (s : State), s.pins.rstn = true →
    let spoiled : State := { s with link := { s.link with
      rx := .spoiled, readbackBad := if k = s.number then true else s.link.readbackBad } }
    let inProgress : Prop := windowAt s s.link.timer = some k
    (onLink s = true → inProgress → s.link.rx = .waiting →
      exec (.receptionError k) s = .next spoiled ∧ exec (.lineDisturbance k) s = .next spoiled) ∧
    (s.station = .listening → s.acq.phase = .listen → inProgress → s.link.rx = .waiting →
      exec (.receptionError k) s = .next { s with link := { s.link with rx := .spoiled } }) ∧
    (s.station = .listening → exec (.lineDisturbance k) s = .next s) ∧
    (s.link.rx ≠ .waiting ∨ ¬inProgress ∨ receiving s = false →
      exec (.receptionError k) s = .next s ∧ exec (.lineDisturbance k) s = .next s) ∧
    (∀ start : Nat, onLink s = true → 16 ≤ start → start < tailStart s → (start - 16) / 176 = k.val →
      exec (.markAccepted start) s = exec (.lineDisturbance k) s)

/-- A newly lost member at a RUNNING station (R38, R59, R136, R148). A frame shows it: the member advertises TRIPPED or JOINED, or
another group. With a PEER_LOSS row of TRIP the station trips, with first cause PEER_LOSS and the slot NONE, whichever of the
two blocks acts first (log entry 4); with RESPACE and the slot NONE a DROP without it is PENDING. Or the miss that makes it ABSENT
shows it (R34): the same follows PEER_ABSENT at the window end. While other events of the tick wait, the cause may wait for their
end, and behind it the content of its frame (R28, R139; log entry 32). -/
def Obligations.LostMemberTripsOrIsDropped : Prop :=
  (∀ (f : Frame) (s : State), s.pins.rstn = true → s.station = .running → f.sender ≠ s.number →
    f.sender.val < stationCount s → s.link.rx = .waiting → f.linkCode = s.tables.link.linkCode →
    malformed s.tables.link.count f = false → f.state ≠ .running ∨ f.group ≠ s.tables.link.group →
    member f.sender s.change.view = true → s.roster.entries[f.sender].presence = .present →
    member f.sender s.roster.lost = false →
    let row := rowOf s.tables .peerLoss
    ∃ t : State, exec (.frameReceived f.sender (encodeFrame f)) s = .next t ∧
      (row.action = .trip →
        t.station = .tripped ∧ t.trip.first = some .peerLoss ∧ t.trip.entry = s.link.cycle ∧
          t.trip.drive = row.drive ∧ t.change.slot = Slot.vacant ∧ t.change.view = 0 ∧ t.gate = Gate.off ∧
          t.carrier = Carrier.stopped ∧ t.setpoint = SetpointUnit.empty ∨
        s.pending ≠ [] ∧ t.station = .running ∧
          t.now.waiting = s.now.waiting ++ [.cause ⟨.peerLoss, f.sender, none⟩, .content f] ∧
          t.roster.lost = s.roster.lost ||| single f.sender ∧ t.gate = s.gate) ∧
      (row.action = .respace → s.change.slot.state = .vacant → f.part = .base ∨ f.group ≠ s.tables.link.group →
        t.station = .running ∧
        t.roster.lost = s.roster.lost ||| single f.sender ∧ t.change.slot.state = .pending ∧
        t.change.slot.automatic = true ∧ member f.sender t.change.slot.newSet = false ∧ t.host = s.host)) ∧
  ∀ (k : StationNo) (s : State), s.pins.rstn = true → s.station = .running → k ≠ s.number → k.val < stationCount s →
    s.link.rx ≠ .handedOver → member k s.change.view = true → s.roster.entries[k].presence = .present →
    s.tables.link.missLimit ≤ s.roster.entries[k].misses + 1 → member k s.roster.lost = false →
    let row := rowOf s.tables .peerLoss
    let absent := reportOf (.peerAbsent s.roster.entries[k].lastHeard true) k s
    ∃ t : State, exec (.windowEnd k) s = .next t ∧ t.roster.entries[k].presence = .absent ∧
      (row.action = .trip →
        t.station = .tripped ∧ t.trip.first = some .peerLoss ∧ t.trip.entry = s.link.cycle ∧
          t.trip.drive = row.drive ∧ t.change.slot = Slot.vacant ∧ t.change.view = 0 ∧ t.gate = Gate.off ∨
        s.pending ≠ [] ∧ t.station = .running ∧ t.now.waiting = s.now.waiting ++ [.cause ⟨.peerLoss, k, none⟩] ∧
          t.roster.lost = s.roster.lost ||| single k ∧ t.gate = s.gate) ∧
      (row.action = .respace → s.change.slot.state = .vacant → t.station = .running ∧
        t.roster.lost = s.roster.lost ||| single k ∧ t.change.slot.state = .pending ∧
        t.change.slot.automatic = true ∧ member k t.change.slot.newSet = false ∧
        t.host.reports = arrive s.host.reports absent)

/-- A mismatch at a RUNNING station (R41, R42, R136): a frame of the own group that advertises RUNNING with another pair, or
from outside the view, sets the mismatch flag once a cycle, and under a TRIP row trips the station with the kind of the
mismatch. While other events of the tick wait, the cause may wait for their end, and behind it the content of its frame (R28, R139;
log entry 32). -/
def Obligations.MismatchTripsOnceACycle : Prop :=
  ∀ (f : Frame) (s : State), s.pins.rstn = true → s.station = .running → f.sender ≠ s.number →
    f.sender.val < stationCount s → s.link.rx = .waiting → f.linkCode = s.tables.link.linkCode →
    malformed s.tables.link.count f = false → f.state = .running → f.group = s.tables.link.group →
    s.roster.entries[f.sender].presence = .present → f.part = .base →
    let outsider : Prop := member f.sender s.change.view = false
    let pair : Prop := member f.sender s.change.view = true ∧ ¬(f.set = s.change.view ∧ f.profile = s.change.profile)
    let row := rowOf s.tables .mismatch
    let waits (t : State) (kind : MismatchKind) : Prop := s.pending ≠ [] ∧ t.station = .running ∧ t.host = s.host ∧
      t.now.waiting = s.now.waiting ++ [.cause ⟨.mismatch, f.sender, some kind⟩, .content f]
    let kind : MismatchKind := if member f.sender s.change.view then .pair else .outsider
    ∃ t : State, exec (.frameReceived f.sender (encodeFrame f)) s = .next t ∧
      (outsider ∨ pair → t.roster.mismatch = true) ∧
      (¬outsider → ¬pair → t.roster.mismatch = s.roster.mismatch ∧ t.station = .running ∧ t.host = s.host) ∧
      (s.roster.mismatch = true → t.station = .running ∧ t.host = s.host) ∧
      (outsider ∨ pair → s.roster.mismatch = false → row.action = .trip →
        t.station = .tripped ∧ t.trip.first = some .mismatch ∧ t.trip.drive = row.drive ∧ t.gate = Gate.off ∧
        t.host.reports = postAll (reportOf (.tripped .mismatch row.drive .running (some kind)) f.sender s ::
          abandonedReports .trip s) s.host.reports ∨ waits t kind) ∧
      (outsider ∨ pair → s.roster.mismatch = false → row.action = .report →
        t.station = .running ∧ t.host.reports =
          arrive s.host.reports (reportOf (.causeSeen .mismatch .running (some kind)) f.sender s) ∨ waits t kind)
end

