-- ==== Sys2Proof/Laws/State.lean ====
section
/-! SUPPORT. The fields of a state after each plain update: one lemma per field per update, all by rfl. -/

namespace Sys2Proof.Machine

/-! ### post -/

@[simp] theorem post_station (body : ReportBody) (subject : StationNo) (s : State) : (post body subject s).station = s.station := rfl
@[simp] theorem post_number (body : ReportBody) (subject : StationNo) (s : State) : (post body subject s).number = s.number := rfl
@[simp] theorem post_acq (body : ReportBody) (subject : StationNo) (s : State) : (post body subject s).acq = s.acq := rfl
@[simp] theorem post_link (body : ReportBody) (subject : StationNo) (s : State) : (post body subject s).link = s.link := rfl
@[simp] theorem post_roster (body : ReportBody) (subject : StationNo) (s : State) : (post body subject s).roster = s.roster := rfl
@[simp] theorem post_change (body : ReportBody) (subject : StationNo) (s : State) : (post body subject s).change = s.change := rfl
@[simp] theorem post_carrier (body : ReportBody) (subject : StationNo) (s : State) : (post body subject s).carrier = s.carrier := rfl
@[simp] theorem post_gate (body : ReportBody) (subject : StationNo) (s : State) : (post body subject s).gate = s.gate := rfl
@[simp] theorem post_setpoint (body : ReportBody) (subject : StationNo) (s : State) : (post body subject s).setpoint = s.setpoint := rfl
@[simp] theorem post_trip (body : ReportBody) (subject : StationNo) (s : State) : (post body subject s).trip = s.trip := rfl
@[simp] theorem post_tables (body : ReportBody) (subject : StationNo) (s : State) : (post body subject s).tables = s.tables := rfl
@[simp] theorem post_host (body : ReportBody) (subject : StationNo) (s : State) :
    (post body subject s).host = { s.host with reports := arrive s.host.reports ⟨body, false, s.link.cycle, subject⟩ } := rfl
@[simp] theorem post_pins (body : ReportBody) (subject : StationNo) (s : State) : (post body subject s).pins = s.pins := rfl
@[simp] theorem post_now (body : ReportBody) (subject : StationNo) (s : State) : (post body subject s).now = s.now := rfl
@[simp] theorem post_free (body : ReportBody) (subject : StationNo) (s : State) : (post body subject s).free = s.free := rfl
@[simp] theorem post_pending (body : ReportBody) (subject : StationNo) (s : State) : (post body subject s).pending = s.pending := rfl

/-! ### postSelf -/

@[simp] theorem postSelf_station (body : ReportBody) (s : State) : (postSelf body s).station = s.station := rfl
@[simp] theorem postSelf_number (body : ReportBody) (s : State) : (postSelf body s).number = s.number := rfl
@[simp] theorem postSelf_acq (body : ReportBody) (s : State) : (postSelf body s).acq = s.acq := rfl
@[simp] theorem postSelf_link (body : ReportBody) (s : State) : (postSelf body s).link = s.link := rfl
@[simp] theorem postSelf_roster (body : ReportBody) (s : State) : (postSelf body s).roster = s.roster := rfl
@[simp] theorem postSelf_change (body : ReportBody) (s : State) : (postSelf body s).change = s.change := rfl
@[simp] theorem postSelf_carrier (body : ReportBody) (s : State) : (postSelf body s).carrier = s.carrier := rfl
@[simp] theorem postSelf_gate (body : ReportBody) (s : State) : (postSelf body s).gate = s.gate := rfl
@[simp] theorem postSelf_setpoint (body : ReportBody) (s : State) : (postSelf body s).setpoint = s.setpoint := rfl
@[simp] theorem postSelf_trip (body : ReportBody) (s : State) : (postSelf body s).trip = s.trip := rfl
@[simp] theorem postSelf_tables (body : ReportBody) (s : State) : (postSelf body s).tables = s.tables := rfl
@[simp] theorem postSelf_host (body : ReportBody) (s : State) :
    (postSelf body s).host = { s.host with reports := arrive s.host.reports ⟨body, false, s.link.cycle, s.number⟩ } := rfl
@[simp] theorem postSelf_pins (body : ReportBody) (s : State) : (postSelf body s).pins = s.pins := rfl
@[simp] theorem postSelf_now (body : ReportBody) (s : State) : (postSelf body s).now = s.now := rfl
@[simp] theorem postSelf_free (body : ReportBody) (s : State) : (postSelf body s).free = s.free := rfl
@[simp] theorem postSelf_pending (body : ReportBody) (s : State) : (postSelf body s).pending = s.pending := rfl

/-! ### setResult -/

@[simp] theorem setResult_station (code : ResultCode) (detail : Byte) (s : State) : (setResult code detail s).station = s.station := rfl
@[simp] theorem setResult_number (code : ResultCode) (detail : Byte) (s : State) : (setResult code detail s).number = s.number := rfl
@[simp] theorem setResult_acq (code : ResultCode) (detail : Byte) (s : State) : (setResult code detail s).acq = s.acq := rfl
@[simp] theorem setResult_link (code : ResultCode) (detail : Byte) (s : State) : (setResult code detail s).link = s.link := rfl
@[simp] theorem setResult_roster (code : ResultCode) (detail : Byte) (s : State) : (setResult code detail s).roster = s.roster := rfl
@[simp] theorem setResult_change (code : ResultCode) (detail : Byte) (s : State) : (setResult code detail s).change = s.change := rfl
@[simp] theorem setResult_carrier (code : ResultCode) (detail : Byte) (s : State) : (setResult code detail s).carrier = s.carrier := rfl
@[simp] theorem setResult_gate (code : ResultCode) (detail : Byte) (s : State) : (setResult code detail s).gate = s.gate := rfl
@[simp] theorem setResult_setpoint (code : ResultCode) (detail : Byte) (s : State) : (setResult code detail s).setpoint = s.setpoint := rfl
@[simp] theorem setResult_trip (code : ResultCode) (detail : Byte) (s : State) : (setResult code detail s).trip = s.trip := rfl
@[simp] theorem setResult_tables (code : ResultCode) (detail : Byte) (s : State) : (setResult code detail s).tables = s.tables := rfl
@[simp] theorem setResult_host (code : ResultCode) (detail : Byte) (s : State) :
    (setResult code detail s).host = { s.host with result := code, detail := detail } := rfl
@[simp] theorem setResult_pins (code : ResultCode) (detail : Byte) (s : State) : (setResult code detail s).pins = s.pins := rfl
@[simp] theorem setResult_now (code : ResultCode) (detail : Byte) (s : State) : (setResult code detail s).now = s.now := rfl
@[simp] theorem setResult_free (code : ResultCode) (detail : Byte) (s : State) : (setResult code detail s).free = s.free := rfl
@[simp] theorem setResult_pending (code : ResultCode) (detail : Byte) (s : State) : (setResult code detail s).pending = s.pending := rfl

/-! ### setResultOpen -/

@[simp] theorem setResultOpen_station (code : ResultCode) (s : State) : (setResultOpen code s).station = s.station := rfl
@[simp] theorem setResultOpen_number (code : ResultCode) (s : State) : (setResultOpen code s).number = s.number := rfl
@[simp] theorem setResultOpen_acq (code : ResultCode) (s : State) : (setResultOpen code s).acq = s.acq := rfl
@[simp] theorem setResultOpen_link (code : ResultCode) (s : State) : (setResultOpen code s).link = s.link := rfl
@[simp] theorem setResultOpen_roster (code : ResultCode) (s : State) : (setResultOpen code s).roster = s.roster := rfl
@[simp] theorem setResultOpen_change (code : ResultCode) (s : State) : (setResultOpen code s).change = s.change := rfl
@[simp] theorem setResultOpen_carrier (code : ResultCode) (s : State) : (setResultOpen code s).carrier = s.carrier := rfl
@[simp] theorem setResultOpen_gate (code : ResultCode) (s : State) : (setResultOpen code s).gate = s.gate := rfl
@[simp] theorem setResultOpen_setpoint (code : ResultCode) (s : State) : (setResultOpen code s).setpoint = s.setpoint := rfl
@[simp] theorem setResultOpen_trip (code : ResultCode) (s : State) : (setResultOpen code s).trip = s.trip := rfl
@[simp] theorem setResultOpen_tables (code : ResultCode) (s : State) : (setResultOpen code s).tables = s.tables := rfl
@[simp] theorem setResultOpen_host (code : ResultCode) (s : State) :
    (setResultOpen code s).host = { s.host with result := code, detail := Config.unstatedDetail s.free } := rfl
@[simp] theorem setResultOpen_pins (code : ResultCode) (s : State) : (setResultOpen code s).pins = s.pins := rfl
@[simp] theorem setResultOpen_now (code : ResultCode) (s : State) : (setResultOpen code s).now = s.now := rfl
@[simp] theorem setResultOpen_free (code : ResultCode) (s : State) :
    (setResultOpen code s).free = s.free + 1 := rfl
@[simp] theorem setResultOpen_pending (code : ResultCode) (s : State) : (setResultOpen code s).pending = s.pending := rfl

/-! ### gateOff -/

@[simp] theorem gateOff_station (s : State) : (gateOff s).station = s.station := rfl
@[simp] theorem gateOff_number (s : State) : (gateOff s).number = s.number := rfl
@[simp] theorem gateOff_acq (s : State) : (gateOff s).acq = s.acq := rfl
@[simp] theorem gateOff_link (s : State) : (gateOff s).link = s.link := rfl
@[simp] theorem gateOff_roster (s : State) : (gateOff s).roster = s.roster := rfl
@[simp] theorem gateOff_change (s : State) : (gateOff s).change = s.change := rfl
@[simp] theorem gateOff_carrier (s : State) : (gateOff s).carrier = s.carrier := rfl
@[simp] theorem gateOff_gate (s : State) :
    (gateOff s).gate = Gate.off := rfl
@[simp] theorem gateOff_setpoint (s : State) : (gateOff s).setpoint = s.setpoint := rfl
@[simp] theorem gateOff_trip (s : State) : (gateOff s).trip = s.trip := rfl
@[simp] theorem gateOff_tables (s : State) : (gateOff s).tables = s.tables := rfl
@[simp] theorem gateOff_host (s : State) : (gateOff s).host = s.host := rfl
@[simp] theorem gateOff_pins (s : State) : (gateOff s).pins = s.pins := rfl
@[simp] theorem gateOff_now (s : State) : (gateOff s).now = s.now := rfl
@[simp] theorem gateOff_free (s : State) : (gateOff s).free = s.free := rfl
@[simp] theorem gateOff_pending (s : State) : (gateOff s).pending = s.pending := rfl

/-! ### carrierStop -/

@[simp] theorem carrierStop_station (s : State) : (carrierStop s).station = s.station := rfl
@[simp] theorem carrierStop_number (s : State) : (carrierStop s).number = s.number := rfl
@[simp] theorem carrierStop_acq (s : State) : (carrierStop s).acq = s.acq := rfl
@[simp] theorem carrierStop_link (s : State) : (carrierStop s).link = s.link := rfl
@[simp] theorem carrierStop_roster (s : State) : (carrierStop s).roster = s.roster := rfl
@[simp] theorem carrierStop_change (s : State) : (carrierStop s).change = s.change := rfl
@[simp] theorem carrierStop_carrier (s : State) :
    (carrierStop s).carrier = Carrier.stopped := rfl
@[simp] theorem carrierStop_gate (s : State) : (carrierStop s).gate = s.gate := rfl
@[simp] theorem carrierStop_setpoint (s : State) : (carrierStop s).setpoint = s.setpoint := rfl
@[simp] theorem carrierStop_trip (s : State) : (carrierStop s).trip = s.trip := rfl
@[simp] theorem carrierStop_tables (s : State) : (carrierStop s).tables = s.tables := rfl
@[simp] theorem carrierStop_host (s : State) : (carrierStop s).host = s.host := rfl
@[simp] theorem carrierStop_pins (s : State) : (carrierStop s).pins = s.pins := rfl
@[simp] theorem carrierStop_now (s : State) : (carrierStop s).now = s.now := rfl
@[simp] theorem carrierStop_free (s : State) : (carrierStop s).free = s.free := rfl
@[simp] theorem carrierStop_pending (s : State) : (carrierStop s).pending = s.pending := rfl

/-! ### setpointClear -/

@[simp] theorem setpointClear_station (s : State) : (setpointClear s).station = s.station := rfl
@[simp] theorem setpointClear_number (s : State) : (setpointClear s).number = s.number := rfl
@[simp] theorem setpointClear_acq (s : State) : (setpointClear s).acq = s.acq := rfl
@[simp] theorem setpointClear_link (s : State) : (setpointClear s).link = s.link := rfl
@[simp] theorem setpointClear_roster (s : State) : (setpointClear s).roster = s.roster := rfl
@[simp] theorem setpointClear_change (s : State) : (setpointClear s).change = s.change := rfl
@[simp] theorem setpointClear_carrier (s : State) : (setpointClear s).carrier = s.carrier := rfl
@[simp] theorem setpointClear_gate (s : State) : (setpointClear s).gate = s.gate := rfl
@[simp] theorem setpointClear_setpoint (s : State) :
    (setpointClear s).setpoint = SetpointUnit.empty := rfl
@[simp] theorem setpointClear_trip (s : State) : (setpointClear s).trip = s.trip := rfl
@[simp] theorem setpointClear_tables (s : State) : (setpointClear s).tables = s.tables := rfl
@[simp] theorem setpointClear_host (s : State) : (setpointClear s).host = s.host := rfl
@[simp] theorem setpointClear_pins (s : State) : (setpointClear s).pins = s.pins := rfl
@[simp] theorem setpointClear_now (s : State) : (setpointClear s).now = s.now := rfl
@[simp] theorem setpointClear_free (s : State) : (setpointClear s).free = s.free := rfl
@[simp] theorem setpointClear_pending (s : State) : (setpointClear s).pending = s.pending := rfl

/-! ### setpointReset -/

@[simp] theorem setpointReset_station (s : State) : (setpointReset s).station = s.station := rfl
@[simp] theorem setpointReset_number (s : State) : (setpointReset s).number = s.number := rfl
@[simp] theorem setpointReset_acq (s : State) : (setpointReset s).acq = s.acq := rfl
@[simp] theorem setpointReset_link (s : State) : (setpointReset s).link = s.link := rfl
@[simp] theorem setpointReset_roster (s : State) : (setpointReset s).roster = s.roster := rfl
@[simp] theorem setpointReset_change (s : State) : (setpointReset s).change = s.change := rfl
@[simp] theorem setpointReset_carrier (s : State) : (setpointReset s).carrier = s.carrier := rfl
@[simp] theorem setpointReset_gate (s : State) : (setpointReset s).gate = s.gate := rfl
@[simp] theorem setpointReset_setpoint (s : State) :
    (setpointReset s).setpoint = { SetpointUnit.empty with queue := s.setpoint.queue } := rfl
@[simp] theorem setpointReset_trip (s : State) : (setpointReset s).trip = s.trip := rfl
@[simp] theorem setpointReset_tables (s : State) : (setpointReset s).tables = s.tables := rfl
@[simp] theorem setpointReset_host (s : State) : (setpointReset s).host = s.host := rfl
@[simp] theorem setpointReset_pins (s : State) : (setpointReset s).pins = s.pins := rfl
@[simp] theorem setpointReset_now (s : State) : (setpointReset s).now = s.now := rfl
@[simp] theorem setpointReset_free (s : State) : (setpointReset s).free = s.free := rfl
@[simp] theorem setpointReset_pending (s : State) : (setpointReset s).pending = s.pending := rfl

/-! ### setEntry -/

@[simp] theorem setEntry_station (k : StationNo) (e : RosterEntry) (s : State) : (setEntry k e s).station = s.station := rfl
@[simp] theorem setEntry_number (k : StationNo) (e : RosterEntry) (s : State) : (setEntry k e s).number = s.number := rfl
@[simp] theorem setEntry_acq (k : StationNo) (e : RosterEntry) (s : State) : (setEntry k e s).acq = s.acq := rfl
@[simp] theorem setEntry_link (k : StationNo) (e : RosterEntry) (s : State) : (setEntry k e s).link = s.link := rfl
@[simp] theorem setEntry_roster (k : StationNo) (e : RosterEntry) (s : State) :
    (setEntry k e s).roster = { s.roster with entries := s.roster.entries.set k.val e } := rfl
@[simp] theorem setEntry_change (k : StationNo) (e : RosterEntry) (s : State) : (setEntry k e s).change = s.change := rfl
@[simp] theorem setEntry_carrier (k : StationNo) (e : RosterEntry) (s : State) : (setEntry k e s).carrier = s.carrier := rfl
@[simp] theorem setEntry_gate (k : StationNo) (e : RosterEntry) (s : State) : (setEntry k e s).gate = s.gate := rfl
@[simp] theorem setEntry_setpoint (k : StationNo) (e : RosterEntry) (s : State) : (setEntry k e s).setpoint = s.setpoint := rfl
@[simp] theorem setEntry_trip (k : StationNo) (e : RosterEntry) (s : State) : (setEntry k e s).trip = s.trip := rfl
@[simp] theorem setEntry_tables (k : StationNo) (e : RosterEntry) (s : State) : (setEntry k e s).tables = s.tables := rfl
@[simp] theorem setEntry_host (k : StationNo) (e : RosterEntry) (s : State) : (setEntry k e s).host = s.host := rfl
@[simp] theorem setEntry_pins (k : StationNo) (e : RosterEntry) (s : State) : (setEntry k e s).pins = s.pins := rfl
@[simp] theorem setEntry_now (k : StationNo) (e : RosterEntry) (s : State) : (setEntry k e s).now = s.now := rfl
@[simp] theorem setEntry_free (k : StationNo) (e : RosterEntry) (s : State) : (setEntry k e s).free = s.free := rfl
@[simp] theorem setEntry_pending (k : StationNo) (e : RosterEntry) (s : State) : (setEntry k e s).pending = s.pending := rfl

/-! ### judgeLost -/

@[simp] theorem judgeLost_station (k : StationNo) (s : State) : (judgeLost k s).station = s.station := rfl
@[simp] theorem judgeLost_number (k : StationNo) (s : State) : (judgeLost k s).number = s.number := rfl
@[simp] theorem judgeLost_acq (k : StationNo) (s : State) : (judgeLost k s).acq = s.acq := rfl
@[simp] theorem judgeLost_link (k : StationNo) (s : State) : (judgeLost k s).link = s.link := rfl
@[simp] theorem judgeLost_roster (k : StationNo) (s : State) :
    (judgeLost k s).roster = { s.roster with lost := if isLost s k then adjoin k s.roster.lost else remove k s.roster.lost } := rfl
@[simp] theorem judgeLost_change (k : StationNo) (s : State) : (judgeLost k s).change = s.change := rfl
@[simp] theorem judgeLost_carrier (k : StationNo) (s : State) : (judgeLost k s).carrier = s.carrier := rfl
@[simp] theorem judgeLost_gate (k : StationNo) (s : State) : (judgeLost k s).gate = s.gate := rfl
@[simp] theorem judgeLost_setpoint (k : StationNo) (s : State) : (judgeLost k s).setpoint = s.setpoint := rfl
@[simp] theorem judgeLost_trip (k : StationNo) (s : State) : (judgeLost k s).trip = s.trip := rfl
@[simp] theorem judgeLost_tables (k : StationNo) (s : State) : (judgeLost k s).tables = s.tables := rfl
@[simp] theorem judgeLost_host (k : StationNo) (s : State) : (judgeLost k s).host = s.host := rfl
@[simp] theorem judgeLost_pins (k : StationNo) (s : State) : (judgeLost k s).pins = s.pins := rfl
@[simp] theorem judgeLost_now (k : StationNo) (s : State) : (judgeLost k s).now = s.now := rfl
@[simp] theorem judgeLost_free (k : StationNo) (s : State) : (judgeLost k s).free = s.free := rfl
@[simp] theorem judgeLost_pending (k : StationNo) (s : State) : (judgeLost k s).pending = s.pending := rfl

/-! ### postpone -/

@[simp] theorem postpone_station (p : Postponed) (s : State) : (postpone p s).station = s.station := rfl
@[simp] theorem postpone_number (p : Postponed) (s : State) : (postpone p s).number = s.number := rfl
@[simp] theorem postpone_acq (p : Postponed) (s : State) : (postpone p s).acq = s.acq := rfl
@[simp] theorem postpone_link (p : Postponed) (s : State) : (postpone p s).link = s.link := rfl
@[simp] theorem postpone_roster (p : Postponed) (s : State) : (postpone p s).roster = s.roster := rfl
@[simp] theorem postpone_change (p : Postponed) (s : State) : (postpone p s).change = s.change := rfl
@[simp] theorem postpone_carrier (p : Postponed) (s : State) : (postpone p s).carrier = s.carrier := rfl
@[simp] theorem postpone_gate (p : Postponed) (s : State) : (postpone p s).gate = s.gate := rfl
@[simp] theorem postpone_setpoint (p : Postponed) (s : State) : (postpone p s).setpoint = s.setpoint := rfl
@[simp] theorem postpone_trip (p : Postponed) (s : State) : (postpone p s).trip = s.trip := rfl
@[simp] theorem postpone_tables (p : Postponed) (s : State) : (postpone p s).tables = s.tables := rfl
@[simp] theorem postpone_host (p : Postponed) (s : State) : (postpone p s).host = s.host := rfl
@[simp] theorem postpone_pins (p : Postponed) (s : State) : (postpone p s).pins = s.pins := rfl
@[simp] theorem postpone_now (p : Postponed) (s : State) :
    (postpone p s).now = { s.now with waiting := s.now.waiting ++ [p] } := rfl
@[simp] theorem postpone_free (p : Postponed) (s : State) : (postpone p s).free = s.free := rfl
@[simp] theorem postpone_pending (p : Postponed) (s : State) : (postpone p s).pending = s.pending := rfl

/-! ### judgeView -/

@[simp] theorem judgeView_station (admitted : StationSet) (s : State) : (judgeView admitted s).station = s.station := rfl
@[simp] theorem judgeView_number (admitted : StationSet) (s : State) : (judgeView admitted s).number = s.number := rfl
@[simp] theorem judgeView_acq (admitted : StationSet) (s : State) : (judgeView admitted s).acq = s.acq := rfl
@[simp] theorem judgeView_link (admitted : StationSet) (s : State) : (judgeView admitted s).link = s.link := rfl
@[simp] theorem judgeView_roster (admitted : StationSet) (s : State) : (judgeView admitted s).roster =
    { s.roster with lost := setOf fun k => isLost s k && !entering admitted s k } := rfl
@[simp] theorem judgeView_change (admitted : StationSet) (s : State) : (judgeView admitted s).change = s.change := rfl
@[simp] theorem judgeView_carrier (admitted : StationSet) (s : State) : (judgeView admitted s).carrier = s.carrier := rfl
@[simp] theorem judgeView_gate (admitted : StationSet) (s : State) : (judgeView admitted s).gate = s.gate := rfl
@[simp] theorem judgeView_setpoint (admitted : StationSet) (s : State) : (judgeView admitted s).setpoint = s.setpoint := rfl
@[simp] theorem judgeView_trip (admitted : StationSet) (s : State) : (judgeView admitted s).trip = s.trip := rfl
@[simp] theorem judgeView_tables (admitted : StationSet) (s : State) : (judgeView admitted s).tables = s.tables := rfl
@[simp] theorem judgeView_host (admitted : StationSet) (s : State) : (judgeView admitted s).host = s.host := rfl
@[simp] theorem judgeView_pins (admitted : StationSet) (s : State) : (judgeView admitted s).pins = s.pins := rfl
@[simp] theorem judgeView_now (admitted : StationSet) (s : State) : (judgeView admitted s).now = s.now := rfl
@[simp] theorem judgeView_free (admitted : StationSet) (s : State) : (judgeView admitted s).free = s.free := rfl
@[simp] theorem judgeView_pending (admitted : StationSet) (s : State) : (judgeView admitted s).pending = s.pending := rfl

/-! ### setSlot -/

@[simp] theorem setSlot_station (c : Slot) (s : State) : (setSlot c s).station = s.station := rfl
@[simp] theorem setSlot_number (c : Slot) (s : State) : (setSlot c s).number = s.number := rfl
@[simp] theorem setSlot_acq (c : Slot) (s : State) : (setSlot c s).acq = s.acq := rfl
@[simp] theorem setSlot_link (c : Slot) (s : State) : (setSlot c s).link = s.link := rfl
@[simp] theorem setSlot_roster (c : Slot) (s : State) : (setSlot c s).roster = s.roster := rfl
@[simp] theorem setSlot_change (c : Slot) (s : State) :
    (setSlot c s).change = { s.change with slot := c } := rfl
@[simp] theorem setSlot_carrier (c : Slot) (s : State) : (setSlot c s).carrier = s.carrier := rfl
@[simp] theorem setSlot_gate (c : Slot) (s : State) : (setSlot c s).gate = s.gate := rfl
@[simp] theorem setSlot_setpoint (c : Slot) (s : State) : (setSlot c s).setpoint = s.setpoint := rfl
@[simp] theorem setSlot_trip (c : Slot) (s : State) : (setSlot c s).trip = s.trip := rfl
@[simp] theorem setSlot_tables (c : Slot) (s : State) : (setSlot c s).tables = s.tables := rfl
@[simp] theorem setSlot_host (c : Slot) (s : State) : (setSlot c s).host = s.host := rfl
@[simp] theorem setSlot_pins (c : Slot) (s : State) : (setSlot c s).pins = s.pins := rfl
@[simp] theorem setSlot_now (c : Slot) (s : State) : (setSlot c s).now = s.now := rfl
@[simp] theorem setSlot_free (c : Slot) (s : State) : (setSlot c s).free = s.free := rfl
@[simp] theorem setSlot_pending (c : Slot) (s : State) : (setSlot c s).pending = s.pending := rfl

/-! ### closeSlot -/

@[simp] theorem closeSlot_station (o : ChangeOutcome) (x : StationNo) (r : CloseReason) (s : State) : (closeSlot o x r s).station = s.station := rfl
@[simp] theorem closeSlot_number (o : ChangeOutcome) (x : StationNo) (r : CloseReason) (s : State) : (closeSlot o x r s).number = s.number := rfl
@[simp] theorem closeSlot_acq (o : ChangeOutcome) (x : StationNo) (r : CloseReason) (s : State) : (closeSlot o x r s).acq = s.acq := rfl
@[simp] theorem closeSlot_link (o : ChangeOutcome) (x : StationNo) (r : CloseReason) (s : State) : (closeSlot o x r s).link = s.link := rfl
@[simp] theorem closeSlot_roster (o : ChangeOutcome) (x : StationNo) (r : CloseReason) (s : State) : (closeSlot o x r s).roster = s.roster := rfl
@[simp] theorem closeSlot_change (o : ChangeOutcome) (x : StationNo) (r : CloseReason) (s : State) :
    (closeSlot o x r s).change = { s.change with slot := Slot.vacant } := rfl
@[simp] theorem closeSlot_carrier (o : ChangeOutcome) (x : StationNo) (r : CloseReason) (s : State) : (closeSlot o x r s).carrier = s.carrier := rfl
@[simp] theorem closeSlot_gate (o : ChangeOutcome) (x : StationNo) (r : CloseReason) (s : State) : (closeSlot o x r s).gate = s.gate := rfl
@[simp] theorem closeSlot_setpoint (o : ChangeOutcome) (x : StationNo) (r : CloseReason) (s : State) : (closeSlot o x r s).setpoint = s.setpoint := rfl
@[simp] theorem closeSlot_trip (o : ChangeOutcome) (x : StationNo) (r : CloseReason) (s : State) : (closeSlot o x r s).trip = s.trip := rfl
@[simp] theorem closeSlot_tables (o : ChangeOutcome) (x : StationNo) (r : CloseReason) (s : State) : (closeSlot o x r s).tables = s.tables := rfl
@[simp] theorem closeSlot_host (o : ChangeOutcome) (x : StationNo) (r : CloseReason) (s : State) :
    (closeSlot o x r s).host = { s.host with
      reports := arrive s.host.reports
        ⟨.changeClosed o s.change.slot.sequence s.change.slot.remote s.change.slot.automatic r, false, s.link.cycle, x⟩ } := rfl
@[simp] theorem closeSlot_pins (o : ChangeOutcome) (x : StationNo) (r : CloseReason) (s : State) : (closeSlot o x r s).pins = s.pins := rfl
@[simp] theorem closeSlot_now (o : ChangeOutcome) (x : StationNo) (r : CloseReason) (s : State) : (closeSlot o x r s).now = s.now := rfl
@[simp] theorem closeSlot_free (o : ChangeOutcome) (x : StationNo) (r : CloseReason) (s : State) : (closeSlot o x r s).free = s.free := rfl
@[simp] theorem closeSlot_pending (o : ChangeOutcome) (x : StationNo) (r : CloseReason) (s : State) : (closeSlot o x r s).pending = s.pending := rfl

/-! ### setFaultFilter -/

@[simp] theorem setFaultFilter_station (i : Fin 4) (f : Filter) (s : State) : (setFaultFilter i f s).station = s.station := rfl
@[simp] theorem setFaultFilter_number (i : Fin 4) (f : Filter) (s : State) : (setFaultFilter i f s).number = s.number := rfl
@[simp] theorem setFaultFilter_acq (i : Fin 4) (f : Filter) (s : State) : (setFaultFilter i f s).acq = s.acq := rfl
@[simp] theorem setFaultFilter_link (i : Fin 4) (f : Filter) (s : State) : (setFaultFilter i f s).link = s.link := rfl
@[simp] theorem setFaultFilter_roster (i : Fin 4) (f : Filter) (s : State) : (setFaultFilter i f s).roster = s.roster := rfl
@[simp] theorem setFaultFilter_change (i : Fin 4) (f : Filter) (s : State) : (setFaultFilter i f s).change = s.change := rfl
@[simp] theorem setFaultFilter_carrier (i : Fin 4) (f : Filter) (s : State) : (setFaultFilter i f s).carrier = s.carrier := rfl
@[simp] theorem setFaultFilter_gate (i : Fin 4) (f : Filter) (s : State) : (setFaultFilter i f s).gate = s.gate := rfl
@[simp] theorem setFaultFilter_setpoint (i : Fin 4) (f : Filter) (s : State) : (setFaultFilter i f s).setpoint = s.setpoint := rfl
@[simp] theorem setFaultFilter_trip (i : Fin 4) (f : Filter) (s : State) :
    (setFaultFilter i f s).trip = { s.trip with faults := s.trip.faults.set i.val f } := rfl
@[simp] theorem setFaultFilter_tables (i : Fin 4) (f : Filter) (s : State) : (setFaultFilter i f s).tables = s.tables := rfl
@[simp] theorem setFaultFilter_host (i : Fin 4) (f : Filter) (s : State) : (setFaultFilter i f s).host = s.host := rfl
@[simp] theorem setFaultFilter_pins (i : Fin 4) (f : Filter) (s : State) : (setFaultFilter i f s).pins = s.pins := rfl
@[simp] theorem setFaultFilter_now (i : Fin 4) (f : Filter) (s : State) : (setFaultFilter i f s).now = s.now := rfl
@[simp] theorem setFaultFilter_free (i : Fin 4) (f : Filter) (s : State) : (setFaultFilter i f s).free = s.free := rfl
@[simp] theorem setFaultFilter_pending (i : Fin 4) (f : Filter) (s : State) : (setFaultFilter i f s).pending = s.pending := rfl

/-! ### enterListening -/

@[simp] theorem enterListening_station (s : State) :
    (enterListening s).station = .listening := rfl
@[simp] theorem enterListening_number (s : State) : (enterListening s).number = s.number := rfl
@[simp] theorem enterListening_acq (s : State) :
    (enterListening s).acq = Acquisition.start := rfl
@[simp] theorem enterListening_link (s : State) :
    (enterListening s).link = { s.link with bits := { BitEngine.rest with run := .passed } } := rfl
@[simp] theorem enterListening_roster (s : State) : (enterListening s).roster = s.roster := rfl
@[simp] theorem enterListening_change (s : State) : (enterListening s).change = s.change := rfl
@[simp] theorem enterListening_carrier (s : State) : (enterListening s).carrier = s.carrier := rfl
@[simp] theorem enterListening_gate (s : State) : (enterListening s).gate = s.gate := rfl
@[simp] theorem enterListening_setpoint (s : State) : (enterListening s).setpoint = s.setpoint := rfl
@[simp] theorem enterListening_trip (s : State) : (enterListening s).trip = s.trip := rfl
@[simp] theorem enterListening_tables (s : State) :
    (enterListening s).tables = { s.tables with frozen := true } := rfl
@[simp] theorem enterListening_host (s : State) : (enterListening s).host = s.host := rfl
@[simp] theorem enterListening_pins (s : State) : (enterListening s).pins = s.pins := rfl
@[simp] theorem enterListening_now (s : State) : (enterListening s).now = { s.now with arrived := false, left := none } := rfl
@[simp] theorem enterListening_free (s : State) : (enterListening s).free = s.free := rfl
@[simp] theorem enterListening_pending (s : State) : (enterListening s).pending = s.pending := rfl

/-! ### enterJoined -/

@[simp] theorem enterJoined_station (n : CycleNo) (t : Nat) (s : State) :
    (enterJoined n t s).station = .joined := rfl
@[simp] theorem enterJoined_number (n : CycleNo) (t : Nat) (s : State) : (enterJoined n t s).number = s.number := rfl
@[simp] theorem enterJoined_acq (n : CycleNo) (t : Nat) (s : State) :
    (enterJoined n t s).acq = Acquisition.start := rfl
@[simp] theorem enterJoined_link (n : CycleNo) (t : Nat) (s : State) :
    (enterJoined n t s).link = { s.link with cycle := n, timer := t, failures := 0, shorts := 0, discord := false } := rfl
@[simp] theorem enterJoined_roster (n : CycleNo) (t : Nat) (s : State) : (enterJoined n t s).roster = s.roster := rfl
@[simp] theorem enterJoined_change (n : CycleNo) (t : Nat) (s : State) :
    (enterJoined n t s).change = { s.change with sequence := 0, viewDiscord := false } := rfl
@[simp] theorem enterJoined_carrier (n : CycleNo) (t : Nat) (s : State) : (enterJoined n t s).carrier = s.carrier := rfl
@[simp] theorem enterJoined_gate (n : CycleNo) (t : Nat) (s : State) : (enterJoined n t s).gate = s.gate := rfl
@[simp] theorem enterJoined_setpoint (n : CycleNo) (t : Nat) (s : State) : (enterJoined n t s).setpoint = s.setpoint := rfl
@[simp] theorem enterJoined_trip (n : CycleNo) (t : Nat) (s : State) : (enterJoined n t s).trip = s.trip := rfl
@[simp] theorem enterJoined_tables (n : CycleNo) (t : Nat) (s : State) : (enterJoined n t s).tables = s.tables := rfl
@[simp] theorem enterJoined_host (n : CycleNo) (t : Nat) (s : State) : (enterJoined n t s).host = s.host := rfl
@[simp] theorem enterJoined_pins (n : CycleNo) (t : Nat) (s : State) : (enterJoined n t s).pins = s.pins := rfl
@[simp] theorem enterJoined_now (n : CycleNo) (t : Nat) (s : State) :
    (enterJoined n t s).now = { s.now with arrived := true } := rfl
@[simp] theorem enterJoined_free (n : CycleNo) (t : Nat) (s : State) : (enterJoined n t s).free = s.free := rfl
@[simp] theorem enterJoined_pending (n : CycleNo) (t : Nat) (s : State) : (enterJoined n t s).pending = s.pending := rfl

/-! ### withdrawalResets -/

@[simp] theorem withdrawalResets_station (s : State) :
    (withdrawalResets s).station = .offline := rfl
@[simp] theorem withdrawalResets_number (s : State) : (withdrawalResets s).number = s.number := rfl
@[simp] theorem withdrawalResets_acq (s : State) :
    (withdrawalResets s).acq = Acquisition.start := rfl
@[simp] theorem withdrawalResets_link (s : State) :
    (withdrawalResets s).link = Link.rest s.link.cycle := rfl
@[simp] theorem withdrawalResets_roster (s : State) :
    (withdrawalResets s).roster = Roster.empty := rfl
@[simp] theorem withdrawalResets_change (s : State) :
    (withdrawalResets s).change = ChangeUnit.empty s.change.sequence := rfl
@[simp] theorem withdrawalResets_carrier (s : State) :
    (withdrawalResets s).carrier = Carrier.stopped := rfl
@[simp] theorem withdrawalResets_gate (s : State) :
    (withdrawalResets s).gate = Gate.off := rfl
@[simp] theorem withdrawalResets_setpoint (s : State) :
    (withdrawalResets s).setpoint = SetpointUnit.empty := rfl
@[simp] theorem withdrawalResets_trip (s : State) :
    (withdrawalResets s).trip = { TripUnit.empty with faults := s.trip.faults, tripLine := s.trip.tripLine } := rfl
@[simp] theorem withdrawalResets_tables (s : State) :
    (withdrawalResets s).tables = { s.tables with frozen := false } := rfl
@[simp] theorem withdrawalResets_host (s : State) : (withdrawalResets s).host = s.host := rfl
@[simp] theorem withdrawalResets_pins (s : State) : (withdrawalResets s).pins = s.pins := rfl
@[simp] theorem withdrawalResets_now (s : State) : (withdrawalResets s).now = Moment.leave s := rfl
@[simp] theorem withdrawalResets_free (s : State) : (withdrawalResets s).free = s.free := rfl
@[simp] theorem withdrawalResets_pending (s : State) : (withdrawalResets s).pending = s.pending := rfl

/-! ### markRestart -/

@[simp] theorem markRestart_station (s : State) : (markRestart s).station = s.station := rfl
@[simp] theorem markRestart_number (s : State) : (markRestart s).number = s.number := rfl
@[simp] theorem markRestart_acq (s : State) : (markRestart s).acq = s.acq := rfl
@[simp] theorem markRestart_link (s : State) :
    (markRestart s).link = { s.link with
      timer := 12, mark := if s.link.mark = .deferred then .quiet else s.link.mark, rx := .waiting, rxBuffer := [],
      bits := { s.link.bits with rx := .hunt } } := rfl
@[simp] theorem markRestart_roster (s : State) : (markRestart s).roster = s.roster := rfl
@[simp] theorem markRestart_change (s : State) : (markRestart s).change = s.change := rfl
@[simp] theorem markRestart_carrier (s : State) : (markRestart s).carrier = s.carrier := rfl
@[simp] theorem markRestart_gate (s : State) : (markRestart s).gate = s.gate := rfl
@[simp] theorem markRestart_setpoint (s : State) : (markRestart s).setpoint = s.setpoint := rfl
@[simp] theorem markRestart_trip (s : State) : (markRestart s).trip = s.trip := rfl
@[simp] theorem markRestart_tables (s : State) : (markRestart s).tables = s.tables := rfl
@[simp] theorem markRestart_host (s : State) : (markRestart s).host = s.host := rfl
@[simp] theorem markRestart_pins (s : State) : (markRestart s).pins = s.pins := rfl
@[simp] theorem markRestart_now (s : State) : (markRestart s).now = s.now := rfl
@[simp] theorem markRestart_free (s : State) : (markRestart s).free = s.free := rfl
@[simp] theorem markRestart_pending (s : State) : (markRestart s).pending = s.pending := rfl

/-! ### numberCycle -/

@[simp] theorem numberCycle_station (n : CycleNo) (s : State) : (numberCycle n s).station = s.station := rfl
@[simp] theorem numberCycle_number (n : CycleNo) (s : State) : (numberCycle n s).number = s.number := rfl
@[simp] theorem numberCycle_acq (n : CycleNo) (s : State) : (numberCycle n s).acq = s.acq := rfl
@[simp] theorem numberCycle_link (n : CycleNo) (s : State) :
    (numberCycle n s).link = { s.link with cycle := n, tally := [] } := rfl
@[simp] theorem numberCycle_roster (n : CycleNo) (s : State) : (numberCycle n s).roster = s.roster := rfl
@[simp] theorem numberCycle_change (n : CycleNo) (s : State) : (numberCycle n s).change = s.change := rfl
@[simp] theorem numberCycle_carrier (n : CycleNo) (s : State) : (numberCycle n s).carrier = s.carrier := rfl
@[simp] theorem numberCycle_gate (n : CycleNo) (s : State) : (numberCycle n s).gate = s.gate := rfl
@[simp] theorem numberCycle_setpoint (n : CycleNo) (s : State) : (numberCycle n s).setpoint = s.setpoint := rfl
@[simp] theorem numberCycle_trip (n : CycleNo) (s : State) : (numberCycle n s).trip = s.trip := rfl
@[simp] theorem numberCycle_tables (n : CycleNo) (s : State) : (numberCycle n s).tables = s.tables := rfl
@[simp] theorem numberCycle_host (n : CycleNo) (s : State) : (numberCycle n s).host = s.host := rfl
@[simp] theorem numberCycle_pins (n : CycleNo) (s : State) : (numberCycle n s).pins = s.pins := rfl
@[simp] theorem numberCycle_now (n : CycleNo) (s : State) : (numberCycle n s).now = s.now := rfl
@[simp] theorem numberCycle_free (n : CycleNo) (s : State) : (numberCycle n s).free = s.free := rfl
@[simp] theorem numberCycle_pending (n : CycleNo) (s : State) : (numberCycle n s).pending = s.pending := rfl

/-! ### closeReception -/

@[simp] theorem closeReception_station (r : RxStatus) (s : State) : (closeReception r s).station = s.station := rfl
@[simp] theorem closeReception_number (r : RxStatus) (s : State) : (closeReception r s).number = s.number := rfl
@[simp] theorem closeReception_acq (r : RxStatus) (s : State) : (closeReception r s).acq = s.acq := rfl
@[simp] theorem closeReception_link (r : RxStatus) (s : State) :
    (closeReception r s).link = { s.link with rx := r } := rfl
@[simp] theorem closeReception_roster (r : RxStatus) (s : State) : (closeReception r s).roster = s.roster := rfl
@[simp] theorem closeReception_change (r : RxStatus) (s : State) : (closeReception r s).change = s.change := rfl
@[simp] theorem closeReception_carrier (r : RxStatus) (s : State) : (closeReception r s).carrier = s.carrier := rfl
@[simp] theorem closeReception_gate (r : RxStatus) (s : State) : (closeReception r s).gate = s.gate := rfl
@[simp] theorem closeReception_setpoint (r : RxStatus) (s : State) : (closeReception r s).setpoint = s.setpoint := rfl
@[simp] theorem closeReception_trip (r : RxStatus) (s : State) : (closeReception r s).trip = s.trip := rfl
@[simp] theorem closeReception_tables (r : RxStatus) (s : State) : (closeReception r s).tables = s.tables := rfl
@[simp] theorem closeReception_host (r : RxStatus) (s : State) : (closeReception r s).host = s.host := rfl
@[simp] theorem closeReception_pins (r : RxStatus) (s : State) : (closeReception r s).pins = s.pins := rfl
@[simp] theorem closeReception_now (r : RxStatus) (s : State) : (closeReception r s).now = s.now := rfl
@[simp] theorem closeReception_free (r : RxStatus) (s : State) : (closeReception r s).free = s.free := rfl
@[simp] theorem closeReception_pending (r : RxStatus) (s : State) : (closeReception r s).pending = s.pending := rfl

/-! ### tallyFrame -/

@[simp] theorem tallyFrame_station (f : Frame) (s : State) : (tallyFrame f s).station = s.station := rfl
@[simp] theorem tallyFrame_number (f : Frame) (s : State) : (tallyFrame f s).number = s.number := rfl
@[simp] theorem tallyFrame_acq (f : Frame) (s : State) : (tallyFrame f s).acq = s.acq := rfl
@[simp] theorem tallyFrame_link (f : Frame) (s : State) :
    (tallyFrame f s).link = { s.link with tally := s.link.tally ++ [f.cycle] } := rfl
@[simp] theorem tallyFrame_roster (f : Frame) (s : State) : (tallyFrame f s).roster = s.roster := rfl
@[simp] theorem tallyFrame_change (f : Frame) (s : State) : (tallyFrame f s).change = s.change := rfl
@[simp] theorem tallyFrame_carrier (f : Frame) (s : State) : (tallyFrame f s).carrier = s.carrier := rfl
@[simp] theorem tallyFrame_gate (f : Frame) (s : State) : (tallyFrame f s).gate = s.gate := rfl
@[simp] theorem tallyFrame_setpoint (f : Frame) (s : State) : (tallyFrame f s).setpoint = s.setpoint := rfl
@[simp] theorem tallyFrame_trip (f : Frame) (s : State) : (tallyFrame f s).trip = s.trip := rfl
@[simp] theorem tallyFrame_tables (f : Frame) (s : State) : (tallyFrame f s).tables = s.tables := rfl
@[simp] theorem tallyFrame_host (f : Frame) (s : State) : (tallyFrame f s).host = s.host := rfl
@[simp] theorem tallyFrame_pins (f : Frame) (s : State) : (tallyFrame f s).pins = s.pins := rfl
@[simp] theorem tallyFrame_now (f : Frame) (s : State) : (tallyFrame f s).now = s.now := rfl
@[simp] theorem tallyFrame_free (f : Frame) (s : State) : (tallyFrame f s).free = s.free := rfl
@[simp] theorem tallyFrame_pending (f : Frame) (s : State) : (tallyFrame f s).pending = s.pending := rfl

/-! ### failReadback -/

@[simp] theorem failReadback_station (s : State) : (failReadback s).station = s.station := rfl
@[simp] theorem failReadback_number (s : State) : (failReadback s).number = s.number := rfl
@[simp] theorem failReadback_acq (s : State) : (failReadback s).acq = s.acq := rfl
@[simp] theorem failReadback_link (s : State) :
    (failReadback s).link = { s.link with readbackBad := true } := rfl
@[simp] theorem failReadback_roster (s : State) : (failReadback s).roster = s.roster := rfl
@[simp] theorem failReadback_change (s : State) : (failReadback s).change = s.change := rfl
@[simp] theorem failReadback_carrier (s : State) : (failReadback s).carrier = s.carrier := rfl
@[simp] theorem failReadback_gate (s : State) : (failReadback s).gate = s.gate := rfl
@[simp] theorem failReadback_setpoint (s : State) : (failReadback s).setpoint = s.setpoint := rfl
@[simp] theorem failReadback_trip (s : State) : (failReadback s).trip = s.trip := rfl
@[simp] theorem failReadback_tables (s : State) : (failReadback s).tables = s.tables := rfl
@[simp] theorem failReadback_host (s : State) : (failReadback s).host = s.host := rfl
@[simp] theorem failReadback_pins (s : State) : (failReadback s).pins = s.pins := rfl
@[simp] theorem failReadback_now (s : State) : (failReadback s).now = s.now := rfl
@[simp] theorem failReadback_free (s : State) : (failReadback s).free = s.free := rfl
@[simp] theorem failReadback_pending (s : State) : (failReadback s).pending = s.pending := rfl

/-! ### stopSending -/

@[simp] theorem stopSending_station (s : State) : (stopSending s).station = s.station := rfl
@[simp] theorem stopSending_number (s : State) : (stopSending s).number = s.number := rfl
@[simp] theorem stopSending_acq (s : State) : (stopSending s).acq = s.acq := rfl
@[simp] theorem stopSending_link (s : State) :
    (stopSending s).link = { s.link with readbackBad := true, bits := { s.link.bits with txBits := [], sending := false } } := rfl
@[simp] theorem stopSending_roster (s : State) : (stopSending s).roster = s.roster := rfl
@[simp] theorem stopSending_change (s : State) : (stopSending s).change = s.change := rfl
@[simp] theorem stopSending_carrier (s : State) : (stopSending s).carrier = s.carrier := rfl
@[simp] theorem stopSending_gate (s : State) : (stopSending s).gate = s.gate := rfl
@[simp] theorem stopSending_setpoint (s : State) : (stopSending s).setpoint = s.setpoint := rfl
@[simp] theorem stopSending_trip (s : State) : (stopSending s).trip = s.trip := rfl
@[simp] theorem stopSending_tables (s : State) : (stopSending s).tables = s.tables := rfl
@[simp] theorem stopSending_host (s : State) : (stopSending s).host = s.host := rfl
@[simp] theorem stopSending_pins (s : State) : (stopSending s).pins = s.pins := rfl
@[simp] theorem stopSending_now (s : State) : (stopSending s).now = s.now := rfl
@[simp] theorem stopSending_free (s : State) : (stopSending s).free = s.free := rfl
@[simp] theorem stopSending_pending (s : State) : (stopSending s).pending = s.pending := rfl

/-! ### closeWindow -/

@[simp] theorem closeWindow_station (k : StationNo) (s : State) : (closeWindow k s).station = s.station := rfl
@[simp] theorem closeWindow_number (k : StationNo) (s : State) : (closeWindow k s).number = s.number := rfl
@[simp] theorem closeWindow_acq (k : StationNo) (s : State) : (closeWindow k s).acq = s.acq := rfl
@[simp] theorem closeWindow_link (k : StationNo) (s : State) :
    (closeWindow k s).link = { s.link with
      timer := windowStart k + 176, rx := .waiting, rxBuffer := [], bits := { s.link.bits with rx := .hunt } } := rfl
@[simp] theorem closeWindow_roster (k : StationNo) (s : State) : (closeWindow k s).roster = s.roster := rfl
@[simp] theorem closeWindow_change (k : StationNo) (s : State) : (closeWindow k s).change = s.change := rfl
@[simp] theorem closeWindow_carrier (k : StationNo) (s : State) : (closeWindow k s).carrier = s.carrier := rfl
@[simp] theorem closeWindow_gate (k : StationNo) (s : State) : (closeWindow k s).gate = s.gate := rfl
@[simp] theorem closeWindow_setpoint (k : StationNo) (s : State) : (closeWindow k s).setpoint = s.setpoint := rfl
@[simp] theorem closeWindow_trip (k : StationNo) (s : State) : (closeWindow k s).trip = s.trip := rfl
@[simp] theorem closeWindow_tables (k : StationNo) (s : State) : (closeWindow k s).tables = s.tables := rfl
@[simp] theorem closeWindow_host (k : StationNo) (s : State) : (closeWindow k s).host = s.host := rfl
@[simp] theorem closeWindow_pins (k : StationNo) (s : State) : (closeWindow k s).pins = s.pins := rfl
@[simp] theorem closeWindow_now (k : StationNo) (s : State) : (closeWindow k s).now = s.now := rfl
@[simp] theorem closeWindow_free (k : StationNo) (s : State) : (closeWindow k s).free = s.free := rfl
@[simp] theorem closeWindow_pending (k : StationNo) (s : State) : (closeWindow k s).pending = s.pending := rfl

/-! ### beginMark -/

@[simp] theorem beginMark_station (s : State) : (beginMark s).station = s.station := rfl
@[simp] theorem beginMark_number (s : State) : (beginMark s).number = s.number := rfl
@[simp] theorem beginMark_acq (s : State) : (beginMark s).acq = s.acq := rfl
@[simp] theorem beginMark_link (s : State) :
    (beginMark s).link = { s.link with
      mark := .driving
      bits := { s.link.bits with driven := 0, level := s.link.bits.level || !s.link.bits.sampled } } := rfl
@[simp] theorem beginMark_roster (s : State) : (beginMark s).roster = s.roster := rfl
@[simp] theorem beginMark_change (s : State) : (beginMark s).change = s.change := rfl
@[simp] theorem beginMark_carrier (s : State) : (beginMark s).carrier = s.carrier := rfl
@[simp] theorem beginMark_gate (s : State) : (beginMark s).gate = s.gate := rfl
@[simp] theorem beginMark_setpoint (s : State) : (beginMark s).setpoint = s.setpoint := rfl
@[simp] theorem beginMark_trip (s : State) : (beginMark s).trip = s.trip := rfl
@[simp] theorem beginMark_tables (s : State) : (beginMark s).tables = s.tables := rfl
@[simp] theorem beginMark_host (s : State) : (beginMark s).host = s.host := rfl
@[simp] theorem beginMark_pins (s : State) : (beginMark s).pins = s.pins := rfl
@[simp] theorem beginMark_now (s : State) : (beginMark s).now = s.now := rfl
@[simp] theorem beginMark_free (s : State) : (beginMark s).free = s.free := rfl
@[simp] theorem beginMark_pending (s : State) : (beginMark s).pending = s.pending := rfl

/-- A command with RSTn high. -/
theorem whilePowered_on {s : State} (f : State → State) (h : s.pins.rstn = true) : whilePowered s f = .next (f s) := by
  simp [whilePowered, h]

/-! ### setPort -/

@[simp] theorem setPort_station (p : SpiPort) (s : State) : (setPort p s).station = s.station := rfl
@[simp] theorem setPort_number (p : SpiPort) (s : State) : (setPort p s).number = s.number := rfl
@[simp] theorem setPort_acq (p : SpiPort) (s : State) : (setPort p s).acq = s.acq := rfl
@[simp] theorem setPort_link (p : SpiPort) (s : State) : (setPort p s).link = s.link := rfl
@[simp] theorem setPort_roster (p : SpiPort) (s : State) : (setPort p s).roster = s.roster := rfl
@[simp] theorem setPort_change (p : SpiPort) (s : State) : (setPort p s).change = s.change := rfl
@[simp] theorem setPort_carrier (p : SpiPort) (s : State) : (setPort p s).carrier = s.carrier := rfl
@[simp] theorem setPort_gate (p : SpiPort) (s : State) : (setPort p s).gate = s.gate := rfl
@[simp] theorem setPort_setpoint (p : SpiPort) (s : State) : (setPort p s).setpoint = s.setpoint := rfl
@[simp] theorem setPort_trip (p : SpiPort) (s : State) : (setPort p s).trip = s.trip := rfl
@[simp] theorem setPort_tables (p : SpiPort) (s : State) : (setPort p s).tables = s.tables := rfl
@[simp] theorem setPort_host (p : SpiPort) (s : State) : (setPort p s).host = { s.host with port := p } := rfl
@[simp] theorem setPort_pins (p : SpiPort) (s : State) : (setPort p s).pins = s.pins := rfl
@[simp] theorem setPort_now (p : SpiPort) (s : State) : (setPort p s).now = s.now := rfl
@[simp] theorem setPort_free (p : SpiPort) (s : State) : (setPort p s).free = s.free := rfl
@[simp] theorem setPort_pending (p : SpiPort) (s : State) : (setPort p s).pending = s.pending := rfl

/-! ### setPhase -/

@[simp] theorem setPhase_station (n : Nat) (s : State) : (setPhase n s).station = s.station := rfl
@[simp] theorem setPhase_number (n : Nat) (s : State) : (setPhase n s).number = s.number := rfl
@[simp] theorem setPhase_acq (n : Nat) (s : State) : (setPhase n s).acq = s.acq := rfl
@[simp] theorem setPhase_link (n : Nat) (s : State) : (setPhase n s).link = { s.link with bits := { s.link.bits with phase := n } } := rfl
@[simp] theorem setPhase_roster (n : Nat) (s : State) : (setPhase n s).roster = s.roster := rfl
@[simp] theorem setPhase_change (n : Nat) (s : State) : (setPhase n s).change = s.change := rfl
@[simp] theorem setPhase_carrier (n : Nat) (s : State) : (setPhase n s).carrier = s.carrier := rfl
@[simp] theorem setPhase_gate (n : Nat) (s : State) : (setPhase n s).gate = s.gate := rfl
@[simp] theorem setPhase_setpoint (n : Nat) (s : State) : (setPhase n s).setpoint = s.setpoint := rfl
@[simp] theorem setPhase_trip (n : Nat) (s : State) : (setPhase n s).trip = s.trip := rfl
@[simp] theorem setPhase_tables (n : Nat) (s : State) : (setPhase n s).tables = s.tables := rfl
@[simp] theorem setPhase_host (n : Nat) (s : State) : (setPhase n s).host = s.host := rfl
@[simp] theorem setPhase_pins (n : Nat) (s : State) : (setPhase n s).pins = s.pins := rfl
@[simp] theorem setPhase_now (n : Nat) (s : State) : (setPhase n s).now = s.now := rfl
@[simp] theorem setPhase_free (n : Nat) (s : State) : (setPhase n s).free = s.free := rfl
@[simp] theorem setPhase_pending (n : Nat) (s : State) : (setPhase n s).pending = s.pending := rfl

/-! ### beforeLeaving -/

@[simp] theorem beforeLeaving_station (b : Leaving) (s : State) : (beforeLeaving b s).station = b.station := rfl
@[simp] theorem beforeLeaving_number (b : Leaving) (s : State) : (beforeLeaving b s).number = s.number := rfl
@[simp] theorem beforeLeaving_acq (b : Leaving) (s : State) : (beforeLeaving b s).acq = b.acq := rfl
@[simp] theorem beforeLeaving_link (b : Leaving) (s : State) : (beforeLeaving b s).link = b.link := rfl
@[simp] theorem beforeLeaving_roster (b : Leaving) (s : State) : (beforeLeaving b s).roster = s.roster := rfl
@[simp] theorem beforeLeaving_change (b : Leaving) (s : State) : (beforeLeaving b s).change = s.change := rfl
@[simp] theorem beforeLeaving_carrier (b : Leaving) (s : State) : (beforeLeaving b s).carrier = s.carrier := rfl
@[simp] theorem beforeLeaving_gate (b : Leaving) (s : State) : (beforeLeaving b s).gate = s.gate := rfl
@[simp] theorem beforeLeaving_setpoint (b : Leaving) (s : State) : (beforeLeaving b s).setpoint = s.setpoint := rfl
@[simp] theorem beforeLeaving_trip (b : Leaving) (s : State) : (beforeLeaving b s).trip = s.trip := rfl
@[simp] theorem beforeLeaving_tables (b : Leaving) (s : State) : (beforeLeaving b s).tables = b.tables := rfl
@[simp] theorem beforeLeaving_host (b : Leaving) (s : State) : (beforeLeaving b s).host = s.host := rfl
@[simp] theorem beforeLeaving_pins (b : Leaving) (s : State) : (beforeLeaving b s).pins = s.pins := rfl
@[simp] theorem beforeLeaving_now (b : Leaving) (s : State) : (beforeLeaving b s).now = s.now := rfl
@[simp] theorem beforeLeaving_free (b : Leaving) (s : State) : (beforeLeaving b s).free = s.free := rfl
@[simp] theorem beforeLeaving_pending (b : Leaving) (s : State) : (beforeLeaving b s).pending = s.pending := rfl

end Sys2Proof.Machine
end

