-- ==== Sys2Proof/Laws/Frames.lean ====
section
/-! SUPPORT. What the operations on causes, notices, loads and changes leave alone. -/

namespace Sys2Proof.Machine

/-- `t` differs from `s` only where causes, losses, loads and changes act: the station state, the lost set, the Change Unit but for
its counter, collection and hold flag, the outputs, the trip record, the result and the report queue, and the free values. -/
structure Steady (s t : State) : Prop where
  number : t.number = s.number
  acq : t.acq = s.acq
  link : t.link = s.link
  entries : t.roster.entries = s.roster.entries
  mismatch : t.roster.mismatch = s.roster.mismatch
  sequence : t.change.sequence = s.change.sequence
  collection : t.change.collection = s.change.collection
  hold : t.change.hold = s.change.hold
  faults : t.trip.faults = s.trip.faults
  tripLine : t.trip.tripLine = s.trip.tripLine
  tables : t.tables = s.tables
  host : t.host = { s.host with reports := t.host.reports, result := t.host.result, detail := t.host.detail }
  pins : t.pins = s.pins
  shown : t.now.shown = s.now.shown
  arrived : t.now.arrived = s.now.arrived
  left : t.now.left = s.now.left
  posts : ∃ l, t.host.reports = postAll l s.host.reports
  pending : t.pending = s.pending

theorem Steady.refl (s : State) : Steady s s := by
  constructor
  case posts => exact ⟨[], rfl⟩
  all_goals rfl

theorem Steady.trans {s t u : State} (h : Steady s t) (k : Steady t u) : Steady s u := by
  constructor
  case host => rw [k.host, h.host]
  case posts =>
    obtain ⟨l, hl⟩ := h.posts
    obtain ⟨m, hm⟩ := k.posts
    exact ⟨l ++ m, by rw [hm, hl]; simp [postAll]⟩
  all_goals first
    | exact k.number.trans h.number | exact k.acq.trans h.acq | exact k.link.trans h.link | exact k.entries.trans h.entries
    | exact k.mismatch.trans h.mismatch | exact k.sequence.trans h.sequence | exact k.collection.trans h.collection
    | exact k.hold.trans h.hold | exact k.faults.trans h.faults | exact k.tripLine.trans h.tripLine
    | exact k.tables.trans h.tables | exact k.pins.trans h.pins
    | exact k.shown.trans h.shown | exact k.arrived.trans h.arrived | exact k.left.trans h.left | exact k.pending.trans h.pending

/-! ## Plain updates -/

theorem steady_post (body : ReportBody) (x : StationNo) (s : State) : Steady s (post body x s) := by constructor <;> first | rfl | exact ⟨[], rfl⟩ | exact ⟨[_], rfl⟩
theorem steady_postSelf (body : ReportBody) (s : State) : Steady s (postSelf body s) := by constructor <;> first | rfl | exact ⟨[], rfl⟩ | exact ⟨[_], rfl⟩
theorem steady_setResult (code : ResultCode) (d : Byte) (s : State) : Steady s (setResult code d s) := by constructor <;> first | rfl | exact ⟨[], rfl⟩
theorem steady_setResultOpen (code : ResultCode) (s : State) : Steady s (setResultOpen code s) := by constructor <;> first | rfl | exact ⟨[], rfl⟩
theorem steady_setSlot (c : Slot) (s : State) : Steady s (setSlot c s) := by constructor <;> first | rfl | exact ⟨[], rfl⟩
theorem steady_closeSlot (o : ChangeOutcome) (x : StationNo) (r : CloseReason) (s : State) : Steady s (closeSlot o x r s) := by
  constructor <;> first | rfl | exact ⟨[], rfl⟩ | exact ⟨[_], rfl⟩
theorem steady_gateOff (s : State) : Steady s (gateOff s) := by constructor <;> first | rfl | exact ⟨[], rfl⟩
theorem steady_carrierStop (s : State) : Steady s (carrierStop s) := by constructor <;> first | rfl | exact ⟨[], rfl⟩
theorem steady_carrierStart (s : State) : Steady s (carrierStart s) := by constructor <;> first | rfl | exact ⟨[], rfl⟩
theorem steady_setpointClear (s : State) : Steady s (setpointClear s) := by constructor <;> first | rfl | exact ⟨[], rfl⟩
theorem steady_setpointReset (s : State) : Steady s (setpointReset s) := by constructor <;> first | rfl | exact ⟨[], rfl⟩
theorem steady_judgeLost (k : StationNo) (s : State) : Steady s (judgeLost k s) := by constructor <;> first | rfl | exact ⟨[], rfl⟩
theorem steady_judgeView (admitted : StationSet) (s : State) : Steady s (judgeView admitted s) := by
  constructor <;> first | rfl | exact ⟨[], rfl⟩
theorem steady_free (n : Nat) (s : State) : Steady s { s with free := n } := by constructor <;> first | rfl | exact ⟨[], rfl⟩

/-! ## Gates, loads and causes -/

theorem steady_judgeGates (s : State) : Steady s (judgeGates s) := by
  unfold judgeGates; split
  · constructor <;> first | rfl | exact ⟨[], rfl⟩
  · exact .refl s

theorem steady_takeLive (s : State) : Steady s (takeLive s) := by
  unfold takeLive; split
  · constructor <;> first | rfl | exact ⟨[], rfl⟩
  · exact .refl s

theorem steady_gateLoad (s : State) : Steady s (gateLoad s) := (steady_takeLive s).trans (steady_judgeGates _)

theorem steady_gateApply (s : State) : Steady s (gateApply s) := by
  refine Steady.trans ?_ (by constructor <;> first | rfl | exact ⟨[], rfl⟩ : Steady (gateLoad { s with gate := { s.gate with deadTime := _ } }) _)
  exact Steady.trans (by constructor <;> first | rfl | exact ⟨[], rfl⟩) (steady_gateLoad _)

theorem steady_starvedLoad (s : State) : Steady s (starvedLoad s).1 := by
  unfold starvedLoad; split <;> constructor <;> first | rfl | exact ⟨[], rfl⟩ | exact ⟨[_], rfl⟩

theorem steady_discardStale (s : State) : Steady s (discardStale s) := by
  unfold discardStale; dsimp only; split
  · exact .refl s
  · constructor <;> first | rfl | exact ⟨[], rfl⟩ | exact ⟨[_], rfl⟩

theorem steady_queueLoad (s : State) : Steady s (queueLoad s).1 := by
  unfold queueLoad; dsimp only; split
  · exact (steady_discardStale s).trans (steady_starvedLoad _)
  · exact (steady_discardStale s).trans (by constructor <;> first | rfl | exact ⟨[], rfl⟩)

theorem steady_patternLoad (s : State) : Steady s (patternLoad s) := by
  unfold patternLoad; dsimp only
  repeat' split
  all_goals constructor <;> first | rfl | exact ⟨[], rfl⟩ | exact ⟨[_], rfl⟩

theorem steady_load (s : State) : Steady s (load s).1 := by
  unfold load; split
  · exact steady_queueLoad s
  · exact steady_patternLoad s

theorem steady_abandonSlot (r : CloseReason) (s : State) : Steady s (abandonSlot r s) := by
  unfold abandonSlot; split
  · exact steady_setSlot ..
  · exact steady_closeSlot ..

theorem steady_tripEntry (c : Cause) (d : Bool) (x : StationNo) (k : Option MismatchKind) (s : State) :
    Steady s (tripEntry c d x k s) := by
  have h := (steady_post (.tripped c d s.station k) x s).trans (steady_abandonSlot .trip _)
  unfold tripEntry; dsimp only
  generalize abandonSlot .trip (post (.tripped c d s.station k) x s) = u at h
  refine h.trans ?_
  constructor <;> first | rfl | exact ⟨[], rfl⟩

theorem steady_endClearOnFault (c : Cause) (s : State) : Steady s (endClearOnFault c s) := by
  unfold endClearOnFault
  split
  · split
    · constructor <;> first | rfl | exact ⟨[], rfl⟩
    · exact .refl s
  all_goals exact .refl s

theorem steady_addCause (c : Cause) (x : StationNo) (k : Option MismatchKind) (s : State) : Steady s (addCause c x k s) := by
  unfold addCause; split
  · exact .refl s
  · refine Steady.trans ?_ (steady_endClearOnFault _ _)
    constructor <;> first | rfl | exact ⟨[], rfl⟩ | exact ⟨[_], rfl⟩

theorem steady_tripClaim (c : Cause) (d : Bool) (x : StationNo) (k : Option MismatchKind) (s : State) :
    Steady s (tripClaim c d x k s) := by
  unfold tripClaim; split
  · exact steady_tripEntry ..
  · exact steady_tripEntry ..
  · exact steady_addCause ..
  · exact .refl s
  · exact .refl s

theorem steady_takeCause (c : Cause) (x : StationNo) (k : Option MismatchKind) (s : State) : Steady s (takeCause c x k s) := by
  unfold takeCause; dsimp only; repeat' split
  all_goals first | exact .refl s | exact steady_post .. | exact steady_tripClaim ..

theorem steady_takeOwnCause (c : Cause) (s : State) : Steady s (takeOwnCause c s) := steady_takeCause ..

theorem steady_postpone (p : Postponed) (s : State) : Steady s (postpone p s) := by
  constructor <;> first | rfl | exact ⟨[], rfl⟩

theorem steady_holdCause (c : Cause) (x : StationNo) (k : Option MismatchKind) (s : State) : Steady s (holdCause c x k s) :=
  steady_postpone ..

theorem steady_raiseCause (c : Cause) (x : StationNo) (k : Option MismatchKind) (s : State) : Steady s (raiseCause c x k s) := by
  unfold raiseCause chooseFirst; dsimp only
  repeat' split
  · exact (steady_free _ s).trans (steady_takeCause ..)
  · exact (steady_free _ s).trans (steady_holdCause ..)
  · exact steady_takeCause ..

theorem steady_raiseStarved (b : Bool) (s : State) : Steady s (raiseStarved b s) := by
  unfold raiseStarved; split
  · split
    · exact steady_holdCause ..
    · exact steady_raiseCause ..
  · exact .refl s

theorem steady_raiseTripLine (s : State) : Steady s (raiseTripLine s) := by
  unfold raiseTripLine; split
  · exact steady_takeOwnCause ..
  · exact .refl s

theorem steady_advanceTo (position : Nat) (s : State) : Steady s (advanceTo position s) :=
  Steady.trans (by constructor <;> first | rfl | exact ⟨[], rfl⟩) (steady_judgeGates _)

/-- A load at a position, its two results named. -/
theorem loadAt_eq (position : Nat) (loadFirst : Bool) (s : State) : loadAt position loadFirst s =
    if loadFirst then
      (advanceTo position (gateLoad (load
          { s with carrier := { s.carrier with position := previousPosition s.carrier.period position } }).1),
        (load { s with carrier := { s.carrier with position := previousPosition s.carrier.period position } }).2)
    else (gateLoad (load (advanceTo position s)).1, (load (advanceTo position s)).2) := by
  unfold loadAt; split <;> rfl

theorem steady_loadAt (position : Nat) (loadFirst : Bool) (s : State) : Steady s (loadAt position loadFirst s).1 := by
  rw [loadAt_eq]; split
  · refine Steady.trans (Steady.trans (Steady.trans ?_ (steady_load _)) (steady_gateLoad _)) (steady_advanceTo _ _)
    constructor <;> first | rfl | exact ⟨[], rfl⟩
  · exact ((steady_advanceTo position s).trans (steady_load _)).trans (steady_gateLoad _)

theorem steady_advanceAndLoad (position : Nat) (s : State) : Steady s (advanceAndLoad position s).1 :=
  (steady_free _ s).trans (steady_loadAt position _ _)

theorem steady_markRephase (s : State) : Steady s (markRephase s).1 := by
  have noted : Steady s (noteRerun s) := by constructor <;> first | rfl | exact ⟨[], rfl⟩
  unfold markRephase; dsimp only; repeat' split
  · exact noted.trans (steady_advanceAndLoad ..)
  · exact noted.trans (steady_loadAt ..)
  · exact noted.trans (steady_advanceTo ..)
  · exact .refl s

/-! ## Notices, proposals, votes, applications -/

theorem steady_recheck (s : State) : Steady s (recheck s) := by
  unfold recheck; split
  · exact steady_setSlot ..
  · exact .refl s

theorem steady_closeAndRecheck (o : ChangeOutcome) (x : StationNo) (r : CloseReason) (s : State) :
    Steady s (closeAndRecheck o x r s) := (steady_closeSlot o x r s).trans (steady_recheck _)

theorem steady_takeNotice (x : StationNo) (why : NoticeCause) (loss : Bool) (s : State) : Steady s (takeNotice x why loss s) := by
  have closing : Steady s (if s.change.slot.state = .pending ∧ s.change.slot.automatic = true then recheck (setSlot Slot.vacant s)
      else if s.change.slot.remote = true ∧ s.change.slot.proposer = x then closeAndRecheck .proposerLost x (.notice why) s
      else if member x s.change.slot.electorate = true ∧ s.change.slot.proposer ≠ x then
        closeAndRecheck .memberLost x (.notice why) s
      else s) := by
    split
    · exact (steady_setSlot Slot.vacant s).trans (steady_recheck _)
    · split
      · exact steady_closeAndRecheck ..
      · split
        · exact steady_closeAndRecheck ..
        · exact .refl s
  unfold takeNotice; dsimp only
  split
  · split
    · exact steady_recheck s
    · exact .refl s
  · exact .refl s
  · exact closing
  · exact closing

theorem steady_deliverNotice (x : StationNo) (why : NoticeCause) (loss : Bool) (s : State) :
    Steady s (deliverNotice x why loss s) := by
  have trip : ∀ s : State, Steady s (if loss then raiseCause .peerLoss x none s else s) := by
    intro s; split
    · exact steady_raiseCause ..
    · exact .refl s
  unfold deliverNotice chooseFirst; dsimp only
  split
  · cases Config.firstOfTwo s.free
    · exact ((steady_free _ s).trans (steady_takeNotice x why loss _)).trans (trip _)
    · exact ((steady_free _ s).trans (trip _)).trans (steady_takeNotice x why loss _)
  · exact (trip s).trans (steady_takeNotice x why loss _)

theorem steady_judgeEntry (k : StationNo) (before : RosterEntry) (s : State) : Steady s (judgeEntry k before s) := by
  unfold judgeEntry; dsimp only; split
  · exact (steady_judgeLost k s).trans (steady_deliverNotice ..)
  · exact steady_judgeLost k s

theorem steady_rejudgeView (admitted : StationSet) (s : State) : Steady s (rejudgeView admitted s) := by
  unfold rejudgeView; dsimp only; split
  · exact steady_judgeView admitted s
  · exact (steady_judgeView admitted s).trans (steady_raiseCause ..)

theorem steady_adopt (f : Frame) (p : Proposal) (s : State) : Steady s (adopt f p s) :=
  ((steady_setSlot (adoptedSlot s f p) s).trans (steady_post ..)).trans (steady_setSlot _ _)

theorem steady_takeProposal (f : Frame) (p : Proposal) (s : State) : Steady s (takeProposal f p s) := by
  unfold takeProposal; dsimp only
  split
  · split
    · exact steady_adopt f p s
    · split
      · exact (steady_setSlot Slot.vacant s).trans (steady_adopt f p _)
      · exact (steady_closeSlot .withdrawn f.sender .contended s).trans (steady_adopt f p _)
    · exact .refl s
    · exact .refl s
  · exact .refl s

theorem steady_takeVote (f : Frame) (v : Vote) (s : State) : Steady s (takeVote f v s) := by
  unfold takeVote; dsimp only; repeat' split
  all_goals first | exact .refl s | exact steady_setSlot .. | exact steady_closeAndRecheck ..

theorem steady_applyClaim (c : Slot) (s : State) : Steady s (applyClaim c s).1 := by
  unfold applyClaim; dsimp only
  have h : Steady s { s with station := stateAfter s c.newSet, change := { s.change with view := c.newSet, profile := c.newProfile } } := by
    constructor <;> first | rfl | exact ⟨[], rfl⟩
  split
  · exact ((h.trans ((steady_carrierStart _).trans (steady_setpointReset _))).trans (steady_load _)).trans (steady_gateApply _)
  · exact h.trans (by constructor <;> first | rfl | exact ⟨[], rfl⟩)
  · exact h.trans (steady_setpointReset _)

/-- An application, the two results of its claim named. -/
theorem applyChange_eq (s : State) :
    applyChange s = raiseStarved (applyClaim s.change.slot s).2
      (recheck (rejudgeView (without s.change.slot.newSet s.change.view)
        (closeSlot .applied s.change.slot.proposer .noReason (applyClaim s.change.slot s).1))) := by
  unfold applyChange; dsimp only

theorem steady_applyChange (s : State) : Steady s (applyChange s) := by
  rw [applyChange_eq]
  exact ((((steady_applyClaim s.change.slot s).trans (steady_closeSlot ..)).trans (steady_rejudgeView _ _)).trans
    (steady_recheck _)).trans (steady_raiseStarved _ _)

theorem steady_deadline (s : State) : Steady s (deadline s) := by
  unfold deadline; dsimp only; repeat' split
  all_goals first | exact .refl s | exact steady_applyChange s | exact steady_closeAndRecheck ..

theorem steady_takePair (pair : StationSet × ProfileNo) (s : State) : Steady s (takePair pair s) :=
  Steady.trans (by constructor <;> first | rfl | exact ⟨[], rfl⟩) (steady_rejudgeView _ _)

theorem steady_refreshDiscord (s : State) : Steady s (refreshDiscord s) := by
  unfold refreshDiscord; split
  · exact .refl s
  · constructor <;> first | rfl | exact ⟨[], rfl⟩ | exact ⟨[_], rfl⟩

theorem steady_refreshView (s : State) : Steady s (refreshView s) := by
  unfold refreshView; repeat' split
  all_goals first | exact steady_takePair .. | exact steady_refreshDiscord s

end Sys2Proof.Machine
end

