-- ==== Sys2Proof/Laws/Reports.lean ====
section
/-! SUPPORT. The report queue (R169): what arriving does to its length and its entries, and reports posted one after the other. -/

namespace Sys2Proof.Machine

@[simp] theorem length_markGap (queue : List Report) : (markGap queue).length = queue.length := by
  fun_induction markGap queue <;> simp_all

/-- Only the newest entry changes, and only in its gap flag. -/
theorem getElem?_markGap (queue : List Report) (i : Nat) :
    (markGap queue)[i]? = queue[i]?.map (fun r => if i + 1 = queue.length then { r with gap := true } else r) := by
  fun_induction markGap queue generalizing i with
  | case1 => simp
  | case2 r => cases i <;> simp
  | case3 r r' rest ih =>
    cases i with
    | zero => simp
    | succ i => simp [ih]

theorem arrive_of_lt {queue : List Report} (h : queue.length < 16) (r : Report) : arrive queue r = queue ++ [r] := if_pos h

theorem arrive_of_full {queue : List Report} (h : 16 ≤ queue.length) (r : Report) : arrive queue r = markGap queue :=
  if_neg (by omega)

/-- The queue grows by one entry at most, and never above 16. -/
theorem length_arrive (queue : List Report) (r : Report) :
    (arrive queue r).length = if queue.length < 16 then queue.length + 1 else queue.length := by
  unfold arrive; split <;> simp

theorem length_arrive_le {queue : List Report} (h : queue.length ≤ 16) (r : Report) : (arrive queue r).length ≤ 16 := by
  rw [length_arrive]; split <;> omega

@[simp] theorem postAll_nil (queue : List Report) : postAll [] queue = queue := rfl

@[simp] theorem postAll_cons (r : Report) (reports queue : List Report) :
    postAll (r :: reports) queue = postAll reports (arrive queue r) := rfl

theorem postAll_append (first second queue : List Report) :
    postAll (first ++ second) queue = postAll second (postAll first queue) := List.foldl_append

/-- With room for all of them, reports are appended in order. -/
theorem postAll_of_room {reports queue : List Report} (h : queue.length + reports.length ≤ 16) :
    postAll reports queue = queue ++ reports := by
  induction reports generalizing queue with
  | nil => simp
  | cons r rest ih =>
    simp only [List.length_cons] at h
    rw [postAll_cons, arrive_of_lt (by omega), ih (by simp; omega)]
    simp

end Sys2Proof.Machine
end

