-- ==== Sys2Proof/Laws/Exits.lean ====
section
/-! SUPPORT. All that a trip entry does (R136, R137), all that a withdrawal does (R88, R89), and the cases of a cause that is
taken (R133, R135, R138). -/

namespace Sys2Proof.Machine

theorem abandonSlot_eq (r : CloseReason) (s : State) :
    abandonSlot r s = { s with
      change := { s.change with slot := Slot.vacant }
      host := { s.host with reports := postAll (abandonedReports r s) s.host.reports } } := by
  unfold abandonSlot abandonedReports; dsimp only
  split <;> rfl

/-- The state a trip entry leaves, in one piece. -/
theorem tripEntry_eq (c : Cause) (d : Bool) (x : StationNo) (k : Option MismatchKind) (s : State) :
    tripEntry c d x k s = { s with
      station := .tripped
      trip := { s.trip with
        first := some c, causes := causeBit c, entry := s.link.cycle, drive := d, settling := false, settled := 0 }
      gate := Gate.off
      carrier := Carrier.stopped
      setpoint := SetpointUnit.empty
      change := { s.change with slot := Slot.vacant, view := 0, profile := 0 }
      roster := { s.roster with lost := 0 }
      now := { s.now with entered := true }
      host := { s.host with
        reports := postAll (reportOf (.tripped c d s.station k) x s :: abandonedReports .trip s) s.host.reports } } := by
  unfold tripEntry; dsimp only; rw [abandonSlot_eq]; rfl

/-- Trip entry is all of R136. -/
theorem trippedBy_tripEntry (c : Cause) (d : Bool) (x : StationNo) (k : Option MismatchKind) (s : State) :
    TrippedBy c d x k s (tripEntry c d x k s) := by
  rw [tripEntry_eq]
  constructor
  case kept => exact ⟨rfl, rfl, rfl, rfl, rfl, rfl, rfl⟩
  case outputs => exact ⟨rfl, rfl, rfl⟩
  case line => intro h; simp [trpnDriven, h]
  all_goals rfl

@[simp] theorem tripEntry_station (c : Cause) (d : Bool) (x : StationNo) (k : Option MismatchKind) (s : State) :
    (tripEntry c d x k s).station = .tripped := rfl

/-- A withdrawal is all of R89, after reports that the claimant has posted before. -/
theorem withdrawn_withdraw (cause : WithdrawalCause) (claimant : List Report) (s : State) :
    Withdrawn cause claimant s
      (withdraw cause { s with host := { s.host with reports := postAll claimant s.host.reports } }) := by
  unfold withdraw endClearOnWithdrawal; dsimp only; rw [abandonSlot_eq]
  constructor
  case reports =>
    rw [postAll_append, postAll_append]
    split <;> rfl
  case now =>
    split <;> exact ⟨rfl, fun h => if_pos h, fun h => ⟨_, if_neg h, rfl, rfl⟩⟩
  case released => split <;> simp [trpnDriven, ltxDominant, Link.rest, BitEngine.rest]
  all_goals split <;> first | rfl | exact ⟨rfl, rfl⟩ | exact ⟨rfl, rfl, rfl⟩ | exact ⟨rfl, rfl, rfl, rfl, rfl, rfl⟩

/-- What a withdrawal does to RESULT and the last command. -/
theorem resultKept_withdraw (cause : WithdrawalCause) (s : State) : resultKept s (withdraw cause s) := by
  unfold withdraw endClearOnWithdrawal resultKept; dsimp only; rw [abandonSlot_eq]
  split <;> simp

/-- The state that an addition to the cause set leaves, where no CLEAR is in its settle or the cause is no fault input (R138). -/
theorem addCause_eq (c : Cause) (x : StationNo) (k : Option MismatchKind) (s : State) (new : hasCause c s.trip.causes = false)
    (quiet : s.trip.settling = false ∨ ∀ i, c ≠ .fault i) :
    addCause c x k s = { s with
      trip := { s.trip with causes := s.trip.causes ||| causeBit c, drive := s.trip.drive || (rowOf s.tables c).drive }
      host := { s.host with
        reports := arrive s.host.reports
          ⟨.tripAdded c (s.trip.drive || (rowOf s.tables c).drive) k, false, s.link.cycle, x⟩ } } := by
  unfold addCause endClearOnFault
  cases c <;> simp_all [post]

/-- The cases of a cause that is taken: nothing, a report, a trip entry, or an addition (R133, R135, R136, R138). -/
theorem takeCause_cases (c : Cause) (x : StationNo) (k : Option MismatchKind) (s : State) :
    takeCause c x k s = s ∨
    takeCause c x k s = post (.causeSeen c s.station k) x s ∨
    (s.station = .joined ∨ s.station = .running) ∧ takeCause c x k s = tripEntry c (rowOf s.tables c).drive x k s ∨
    s.station = .tripped ∧ takeCause c x k s = addCause c x k s := by
  unfold takeCause tripClaim; dsimp only
  split
  · split
    · exact .inl rfl
    · exact .inl rfl
    · exact .inr (.inl rfl)
    · split <;> simp_all
  · exact .inl rfl

/-! ## Causes that the step of a block raises (R139) -/

/-- A raised cause is taken at once, or waits for the other events of its tick; it is taken at once where none waits. -/
theorem raiseCause_cases (c : Cause) (x : StationNo) (k : Option MismatchKind) (s : State) :
    raiseCause c x k s = takeCause c x k s ∨
    s.pending ≠ [] ∧ (raiseCause c x k s = takeCause c x k { s with free := s.free + 1 } ∨
      raiseCause c x k s = holdCause c x k { s with free := s.free + 1 }) := by
  unfold raiseCause chooseFirst; dsimp only
  split
  · rename_i h
    refine .inr ⟨by simp [mayMeet] at h; exact h.1, ?_⟩
    split
    · exact .inl rfl
    · exact .inr rfl
  · exact .inl rfl

theorem raiseCause_alone (c : Cause) (x : StationNo) (k : Option MismatchKind) {s : State} (h : s.pending = []) :
    raiseCause c x k s = takeCause c x k s := by
  unfold raiseCause; rw [if_neg (by simp [mayMeet, h])]

/-- The STARVED cause of a load is taken at once or waits for the other events of its tick; it is taken at once where none waits,
and waits behind a command that may trip or withdraw the station (R129, R139). -/
theorem raiseStarved_cases (s : State) :
    raiseStarved true s = takeOwnCause .starved s ∨
    s.pending ≠ [] ∧ ∃ n, raiseStarved true s = takeOwnCause .starved { s with free := n } ∨
      raiseStarved true s = holdCause .starved s.number none { s with free := n } := by
  unfold raiseStarved; rw [if_pos rfl]; split
  · rename_i h
    refine .inr ⟨?_, s.free, .inr rfl⟩
    intro e; simp [e] at h
  · rcases raiseCause_cases .starved s.number none s with e | ⟨hp, e | e⟩
    · exact .inl e
    · exact .inr ⟨hp, s.free + 1, .inl e⟩
    · exact .inr ⟨hp, s.free + 1, .inr e⟩

theorem raiseStarved_alone (raised : Bool) {s : State} (h : s.pending = []) :
    raiseStarved raised s = if raised then takeOwnCause .starved s else s := by
  unfold raiseStarved; split
  · rw [if_neg (by simp [h]), raiseCause_alone _ _ _ h]; rfl
  · rfl

/-- A cause whose row gives neither REPORT nor TRIP, or that its state does not evaluate, does nothing. -/
theorem takeCause_idle (c : Cause) (x : StationNo) (k : Option MismatchKind) {s : State} (h : actsOn c s = false) :
    takeCause c x k s = s := by
  unfold actsOn at h; unfold takeCause; dsimp only
  split
  · split <;> simp_all
  · rfl

/-- A STARVED behind a command that may trip or withdraw the station waits for it (R129, R139). -/
theorem raiseStarved_behind {s : State} (h : s.pending.any mayClaim = true) :
    raiseStarved true s = if actsOn .starved s then holdCause .starved s.number none s else s := by
  unfold raiseStarved; rw [if_pos rfl, h, Bool.true_and]; split
  · rfl
  · rename_i ha
    rw [raiseCause, if_neg (by simp [mayMeet, ha]), takeCause_idle _ _ _ (by simpa using ha)]

/-- With no claim of an earlier state kept, or with a claim that its event does not make, nothing happens; otherwise its report is
posted, and nothing else (R90). -/
theorem discardedClaim_cases (claim : State → Option ReportBody) (s : State) :
    discardedClaim claim s = s ∨ ∃ body, discardedClaim claim s = postSelf body s := by
  unfold discardedClaim
  repeat' split
  · exact .inl rfl
  · exact .inl rfl
  · exact .inr ⟨_, rfl⟩

end Sys2Proof.Machine
end

