-- ==== Sys2Proof/Laws/Legs.lean ====
section
/-! SUPPORT. The legs of the Gate Stage (R109, R111, R112, R115, R116): what a judgement, a turn-on and an application do to one
leg, and that every one of them leaves a safe leg. -/

namespace Sys2Proof.Machine

@[simp] theorem get_map {α β : Type} (f : α → β) (v : PerLeg α) (leg : Leg) : (v.map f).get leg = f (v.get leg) := by
  cases leg <;> rfl

theorem get_modify {α : Type} (f : α → α) (v : PerLeg α) (leg other : Leg) :
    (v.modify leg f).get other = if other = leg then f (v.get other) else v.get other := by
  cases leg <;> cases other <;> rfl

@[simp] theorem get_gate_off (leg : Leg) : Gate.off.legs.get leg = LegState.off := by cases leg <;> rfl

theorem demand_upper_iff (mode : LegMode) (compare : Word16) (value : Nat) :
    demand mode compare value = some .upper ↔ mode = .upperOn ∨ mode = .switch ∧ value < compare.toNat := by
  cases mode <;> simp [demand]

theorem demand_lower_iff (mode : LegMode) (compare : Word16) (value : Nat) :
    demand mode compare value = some .lower ↔ mode = .lowerOn ∨ mode = .switch ∧ ¬value < compare.toNat := by
  cases mode <;> simp [demand]

@[simp] theorem mode_judgeLeg (wanted : Option Side) (l : LegState) : (judgeLeg wanted l).mode = l.mode := by
  unfold judgeLeg; repeat' split
  all_goals rfl

@[simp] theorem compare_judgeLeg (wanted : Option Side) (l : LegState) : (judgeLeg wanted l).compare = l.compare := by
  unfold judgeLeg; repeat' split
  all_goals rfl

/-- After a judgement a gate is on exactly where it was on and is demanded (R111). -/
theorem gateOn_judgeLeg (wanted : Option Side) (l : LegState) (side : Side) :
    gateOn (judgeLeg wanted l) side = (gateOn l side && decide (wanted = some side)) := by
  obtain _ | w := wanted
  · cases side <;> simp [judgeLeg, gateOn]
  · cases w <;> cases side <;> simp only [judgeLeg, gateOn] <;> repeat' split
    all_goals simp_all

/-- After a judgement a gate waits exactly where it is demanded and off (R112). -/
theorem pending_judgeLeg (wanted : Option Side) (l : LegState) (side : Side) :
    (judgeLeg wanted l).pending = some side ↔ wanted = some side ∧ gateOn l side = false := by
  obtain _ | w := wanted
  · simp [judgeLeg]
  · cases w <;> cases side <;> simp only [judgeLeg, gateOn] <;> repeat' split
    all_goals simp_all

/-- A wait whose demand holds keeps its count; every other count is 0 (R112). -/
theorem count_judgeLeg (wanted : Option Side) (l : LegState) :
    (judgeLeg wanted l).count =
      match wanted with
      | some side => if gateOn l side = false ∧ l.pending = some side then l.count else 0
      | none => 0 := by
  obtain _ | w := wanted
  · simp [judgeLeg]
  · cases w <;> simp only [judgeLeg, gateOn] <;> repeat' split
    all_goals simp_all

theorem legSafe_off : legSafe LegState.off := by simp [legSafe, LegState.off]

/-- Every judgement leaves a safe leg. -/
theorem legSafe_judgeLeg (wanted : Option Side) (l : LegState) : legSafe (judgeLeg wanted l) := by
  obtain _ | w := wanted
  · simp [judgeLeg, legSafe]
  · unfold legSafe
    cases w <;> simp only [judgeLeg] <;> repeat' split
    all_goals simp_all

/-- A turn-on of a safe leg leaves a safe leg. -/
theorem legSafe_turnOn {l : LegState} (h : legSafe l) : legSafe (turnOn l) := by
  unfold legSafe turnOn at *
  split <;> simp_all

theorem legSafe_ripen (d : Nat) {l : LegState} (h : legSafe l) : legSafe (ripen d l) := by
  unfold ripen; split
  · exact legSafe_turnOn h
  · exact h

theorem legSafe_takeSetting (enabled : Bool) (setting : LegSetting) {l : LegState} (h : legSafe l) :
    legSafe (takeSetting enabled setting l) := by
  unfold takeSetting; split <;> simpa [legSafe] using h

/-- A count step changes neither gate nor what waits, and lengthens the wait of a pending gate by one (R112). -/
theorem countStep_spec (l : LegState) :
    gateOn (countStep l) = gateOn l ∧ (countStep l).pending = l.pending ∧ (countStep l).mode = l.mode ∧
      (countStep l).compare = l.compare ∧ (countStep l).count = if l.pending = none then l.count else l.count + 1 := by
  unfold countStep
  split
  · simp_all
  · simp_all
    funext side
    cases side <;> rfl

theorem legSafe_countStep {l : LegState} (h : legSafe l) : legSafe (countStep l) := by
  unfold countStep; split <;> exact h

/-- The gates that fall due are the pending ones whose count has reached the dead time (R112). -/
theorem mem_gateDue (d : Nat) (leg : Leg) (l : LegState) (c : Instr) :
    c ∈ gateDue d leg l ↔ ∃ side, l.pending = some side ∧ d ≤ l.count ∧ c = .deadTimeElapsed leg side := by
  unfold gateDue
  split
  · simp_all
  · split <;> simp_all

end Sys2Proof.Machine
end

