-- ==== Sys2Proof/Laws/Loads.lean ====
section
/-! SUPPORT. Loads, judgements of the gates, and the re-phase: which fields each of them can change, and what a judgement after a
load leaves on every leg (R105, R108, R110, R123 to R126). -/

namespace Sys2Proof.Machine

/-! ## The Gate Stage changes the gates alone -/

theorem judgeGates_eq (s : State) : judgeGates s = { s with gate := (judgeGates s).gate } := by
  unfold judgeGates; split <;> rfl

theorem takeLive_eq (s : State) : takeLive s = { s with gate := (takeLive s).gate } := by
  unfold takeLive; split <;> rfl

theorem gateLoad_eq (s : State) : gateLoad s = { s with gate := (gateLoad s).gate } := by
  unfold gateLoad; rw [judgeGates_eq, takeLive_eq s]

theorem gateApply_eq (s : State) : gateApply s = { s with gate := (gateApply s).gate } := by
  unfold gateApply; dsimp only; rw [gateLoad_eq]

@[simp] theorem judgeGates_deadTime (s : State) : (judgeGates s).gate.deadTime = s.gate.deadTime := by
  unfold judgeGates; split <;> rfl

@[simp] theorem takeLive_deadTime (s : State) : (takeLive s).gate.deadTime = s.gate.deadTime := by
  unfold takeLive; split <;> rfl

@[simp] theorem gateLoad_deadTime (s : State) : (gateLoad s).gate.deadTime = s.gate.deadTime := by simp [gateLoad]

@[simp] theorem gateApply_deadTime (s : State) : (gateApply s).gate.deadTime = (liveProfile s).deadTime := by
  simp [gateApply]

/-- After a load in RUNNING every leg has the mode and compare value that the live setpoint gives and the profile enables (R108),
and no gate of a leg in OFF is on. -/
theorem gateLoad_legs {s : State} (h : s.station = .running) (leg : Leg) :
    ((gateLoad s).gate.legs.get leg).mode =
        (if (liveProfile s).enables.get leg then (s.setpoint.live.get leg).mode else .off) ∧
      ((gateLoad s).gate.legs.get leg).compare =
        (if (liveProfile s).enables.get leg then (s.setpoint.live.get leg).compare else 0) ∧
      ∀ side, gateOn ((gateLoad s).gate.legs.get leg) side = true → ((gateLoad s).gate.legs.get leg).mode ≠ .off := by
  have mode : ∀ e x l, (takeSetting e x l).mode = if e then x.mode else .off := by
    intro e x l; cases e <;> rfl
  have compare : ∀ e x l, (takeSetting e x l).compare = if e then x.compare else 0 := by
    intro e x l; cases e <;> rfl
  have off : ∀ (l : LegState) v side, gateOn (judgeLeg (demand l.mode l.compare v) l) side = true → l.mode ≠ .off := by
    intro l v side hg hm
    rw [gateOn_judgeLeg, hm] at hg
    simp [demand] at hg
  unfold gateLoad judgeGates takeLive
  simp only [h, if_true]
  rw [get_map]
  cases leg <;> exact ⟨(mode_judgeLeg _ _).trans (mode _ _ _), (compare_judgeLeg _ _).trans (compare _ _ _), fun side hg => by
    rw [mode_judgeLeg]; exact off _ _ side hg⟩

/-! ## Loads -/

/-- A starved load changes the setpoints and posts one report at most. -/
theorem starvedLoad_eq (s : State) : ∃ l, l.length ≤ 1 ∧ (starvedLoad s).1 =
    { s with setpoint := (starvedLoad s).1.setpoint, host := { s.host with reports := postAll l s.host.reports } } := by
  unfold starvedLoad; dsimp only
  split
  · exact ⟨[], by simp, rfl⟩
  · exact ⟨[_], by simp, rfl⟩

theorem discardStale_eq (s : State) : ∃ l, l.length ≤ 1 ∧ discardStale s =
    { s with setpoint := (discardStale s).setpoint, host := { s.host with reports := postAll l s.host.reports } } := by
  unfold discardStale; dsimp only
  split
  · exact ⟨[], by simp, rfl⟩
  · exact ⟨[_], by simp, rfl⟩

/-- A load changes the setpoints and posts two reports at most. -/
theorem load_eq (s : State) : ∃ l, l.length ≤ 2 ∧ (load s).1 =
    { s with setpoint := (load s).1.setpoint, host := { s.host with reports := postAll l s.host.reports } } := by
  unfold load
  split
  · obtain ⟨l, hl, e⟩ := discardStale_eq s
    unfold queueLoad; dsimp only
    split
    · obtain ⟨m, hm, f⟩ := starvedLoad_eq (discardStale s)
      refine ⟨l ++ m, by simp; omega, ?_⟩
      rw [f, postAll_append, e]
    · exact ⟨l, by omega, by rw [e]⟩
  · unfold patternLoad; dsimp only
    repeat' split
    · exact ⟨[], by simp, rfl⟩
    · exact ⟨[], by simp, rfl⟩
    · exact ⟨[], by simp, rfl⟩
    · exact ⟨[_], by simp, rfl⟩

/-! ## Causes that do not trip -/

/-- A cause whose row does not give TRIP posts one report at most. -/
theorem takeCause_mild (c : Cause) (x : StationNo) (k : Option MismatchKind) (s : State)
    (h : (rowOf s.tables c).action ≠ .trip) : ∃ l, l.length ≤ 1 ∧
      takeCause c x k s = { s with host := { s.host with reports := postAll l s.host.reports } } := by
  unfold takeCause; dsimp only
  split
  · split
    · exact ⟨[], by simp, rfl⟩
    · exact ⟨[], by simp, rfl⟩
    · exact ⟨[_], by simp, rfl⟩
    · contradiction
  · exact ⟨[], by simp, rfl⟩

/-- A raised cause whose row does not give TRIP posts one report at most, or waits. -/
theorem raiseCause_mild (c : Cause) (x : StationNo) (k : Option MismatchKind) (s : State)
    (h : (rowOf s.tables c).action ≠ .trip) : ∃ l, l.length ≤ 1 ∧ ∃ n w,
      raiseCause c x k s = { s with
        host := { s.host with reports := postAll l s.host.reports }, free := n, now := { s.now with waiting := w } } := by
  rcases raiseCause_cases c x k s with e | ⟨-, e | e⟩
  · obtain ⟨l, hl, f⟩ := takeCause_mild c x k s h
    exact ⟨l, hl, s.free, s.now.waiting, by rw [e, f]⟩
  · obtain ⟨l, hl, f⟩ := takeCause_mild c x k { s with free := s.free + 1 } h
    exact ⟨l, hl, s.free + 1, s.now.waiting, by rw [e, f]⟩
  · exact ⟨[], by simp, _, _, by rw [e]; rfl⟩

theorem raiseStarved_mild (b : Bool) (s : State) (h : (rowOf s.tables .starved).action ≠ .trip) : ∃ l, l.length ≤ 1 ∧ ∃ n w,
    raiseStarved b s = { s with
      host := { s.host with reports := postAll l s.host.reports }, free := n, now := { s.now with waiting := w } } := by
  cases b
  · exact ⟨[], by simp, s.free, s.now.waiting, rfl⟩
  · rcases raiseStarved_cases s with e | ⟨-, n, e | e⟩
    · obtain ⟨l, hl, f⟩ := takeCause_mild .starved s.number none s h
      exact ⟨l, hl, s.free, s.now.waiting, by rw [e, takeOwnCause, f]⟩
    · obtain ⟨l, hl, f⟩ := takeCause_mild .starved s.number none { s with free := n } h
      exact ⟨l, hl, n, s.now.waiting, by rw [e, takeOwnCause]; exact f⟩
    · exact ⟨[], by simp, _, _, by rw [e]; rfl⟩

/-! ## Loads of a running carrier -/

/-- A load looks at neither the carrier nor the gates. -/
theorem load_frame (c : Carrier) (g : Gate) (s : State) :
    load { s with carrier := c, gate := g } = ({ (load s).1 with carrier := c, gate := g }, (load s).2) := by
  have stale : discardStale { s with carrier := c, gate := g } = { discardStale s with carrier := c, gate := g } := by
    unfold discardStale; dsimp only; split <;> rfl
  have starved : ∀ u : State, starvedLoad { u with carrier := c, gate := g } =
      ({ (starvedLoad u).1 with carrier := c, gate := g }, (starvedLoad u).2) := by
    intro u; unfold starvedLoad; dsimp only; split <;> rfl
  have queue : queueLoad { s with carrier := c, gate := g } =
      ({ (queueLoad s).1 with carrier := c, gate := g }, (queueLoad s).2) := by
    unfold queueLoad; rw [stale]
    generalize discardStale s = u
    dsimp only
    cases u.setpoint.queue with
    | nil => exact starved u
    | cons r rest => rfl
  have pattern : patternLoad { s with carrier := c, gate := g } = { patternLoad s with carrier := c, gate := g } := by
    unfold patternLoad liveProfile; dsimp only
    repeat' split
    all_goals rfl
  unfold load liveProfile; dsimp only
  split
  · exact queue
  · rw [pattern]

theorem advanceTo_eq (position : Nat) (s : State) : advanceTo position s = { s with
    carrier := { s.carrier with position := position, setThisTick := false }, gate := (advanceTo position s).gate } := by
  unfold advanceTo; rw [judgeGates_eq]

@[simp] theorem advanceTo_deadTime (position : Nat) (s : State) : (advanceTo position s).gate.deadTime = s.gate.deadTime :=
  judgeGates_deadTime _

/-- An advance judges the legs and changes neither their modes nor their compare values; a gate that is on has its demand. -/
theorem advanceTo_legs (position : Nat) (s : State) (leg : Leg) :
    ((advanceTo position s).gate.legs.get leg).mode = (s.gate.legs.get leg).mode ∧
      ((advanceTo position s).gate.legs.get leg).compare = (s.gate.legs.get leg).compare ∧
      ∀ side, gateOn ((advanceTo position s).gate.legs.get leg) side = true → gateOn (s.gate.legs.get leg) side = true := by
  unfold advanceTo judgeGates; dsimp only
  split
  · rw [get_map]
    refine ⟨mode_judgeLeg _ _, compare_judgeLeg _ _, fun side h => ?_⟩
    rw [gateOn_judgeLeg] at h
    simp at h; exact h.1
  · exact ⟨rfl, rfl, fun _ h => h⟩

/-- A load of a running carrier, in either order of advance and load (R105, R110, R123): what the load makes of the state, the
carrier at the position, and legs that hold what the live profile enables of the live setpoint. -/
theorem loadAt_spec (position : Nat) (loadFirst : Bool) (s : State) :
    ∃ g : Gate, loadAt position loadFirst s = ({ (load s).1 with
        carrier := { s.carrier with position := position, setThisTick := false }, gate := g }, (load s).2) ∧
      g.deadTime = s.gate.deadTime ∧
      (s.station = .running → ∀ leg,
        (g.legs.get leg).mode =
          (if (liveProfile s).enables.get leg then ((load s).1.setpoint.live.get leg).mode else .off) ∧
        (g.legs.get leg).compare =
          (if (liveProfile s).enables.get leg then ((load s).1.setpoint.live.get leg).compare else 0) ∧
        ∀ side, gateOn (g.legs.get leg) side = true → (g.legs.get leg).mode ≠ .off) := by
  obtain ⟨l, -, hl⟩ := load_eq s
  have key : ∀ c g, (load { s with carrier := c, gate := g }) = ({ (load s).1 with carrier := c, gate := g }, (load s).2) :=
    fun c g => load_frame c g s
  have live : ∀ c g, liveProfile ({ (load s).1 with carrier := c, gate := g } : State) = liveProfile s := by
    intro c g; unfold liveProfile; rw [hl]
  have st : (load s).1.station = s.station := by rw [hl]
  rw [loadAt_eq]; split
  · have k := key { s.carrier with position := previousPosition s.carrier.period position } s.gate
    have k : load { s with carrier := { s.carrier with position := previousPosition s.carrier.period position } } = _ := k
    rw [k]
    obtain ⟨u, hu⟩ : ∃ u : State, u = { (load s).1 with
      carrier := { s.carrier with position := previousPosition s.carrier.period position }, gate := s.gate } := ⟨_, rfl⟩
    rw [← hu]
    have hg := gateLoad_eq u
    refine ⟨(advanceTo position (gateLoad u)).gate, ?_, ?_, ?_⟩
    · rw [advanceTo_eq, hg, hu]
    · rw [advanceTo_deadTime, gateLoad_deadTime, hu]
    · intro hs leg
      obtain ⟨a1, a2, a3⟩ := advanceTo_legs position (gateLoad u) leg
      obtain ⟨b1, b2, b3⟩ := gateLoad_legs (s := u) (by rw [hu]; exact st.trans hs) leg
      have lu : liveProfile u = liveProfile s := by rw [hu]; exact live _ _
      have su : u.setpoint = (load s).1.setpoint := by rw [hu]
      rw [lu, su] at b1 b2
      exact ⟨a1.trans b1, a2.trans b2, fun side h => by rw [a1]; exact b3 side (a3 side h)⟩
  · have ha := advanceTo_eq position s
    have k : load (advanceTo position s) = ({ (load s).1 with
        carrier := { s.carrier with position := position, setThisTick := false }, gate := (advanceTo position s).gate },
        (load s).2) := by rw [ha]; exact key _ _
    rw [k]
    obtain ⟨u, hu⟩ : ∃ u : State, u = { (load s).1 with
      carrier := { s.carrier with position := position, setThisTick := false }, gate := (advanceTo position s).gate } :=
      ⟨_, rfl⟩
    rw [← hu]
    have hg := gateLoad_eq u
    refine ⟨(gateLoad u).gate, ?_, ?_, ?_⟩
    · rw [hg, hu]
    · rw [gateLoad_deadTime, hu]; exact advanceTo_deadTime _ _
    · intro hs leg
      obtain ⟨b1, b2, b3⟩ := gateLoad_legs (s := u) (by rw [hu]; exact st.trans hs) leg
      have lu : liveProfile u = liveProfile s := by rw [hu]; exact live _ _
      have su : u.setpoint = (load s).1.setpoint := by rw [hu]
      rw [lu, su] at b1 b2
      exact ⟨b1, b2, b3⟩

/-- The re-phase of a running carrier that no application has set in this tick (R100, R101): the position becomes the offset, the
legs are judged, and a load is made exactly where the correction reaches a load position. -/
theorem markRephase_spec (s : State) (hr : s.carrier.running = true) (ht : s.carrier.setThisTick = false) :
    (rephaseLoads s.carrier = false → markRephase s = (advanceTo s.carrier.offset (noteRerun s), false)) ∧
    (rephaseLoads s.carrier = true → ∃ loadFirst n, (correction s.carrier ≠ 0 → loadFirst = false) ∧
      markRephase s = loadAt s.carrier.offset loadFirst { noteRerun s with free := n }) := by
  unfold markRephase; dsimp only; rw [if_pos ⟨hr, ht⟩]
  constructor
  · intro h; rw [h]; rfl
  · intro h; rw [if_pos h]; split
    · rename_i h0
      exact ⟨Config.firstOfTwo s.free, s.free + 1, fun q => absurd h0 q, rfl⟩
    · exact ⟨false, s.free, fun _ => rfl, rfl⟩

/-- A re-phase changes the carrier, the gates, the setpoints and the free values, and posts two reports at most. -/
theorem markRephase_eq (s : State) (hr : s.carrier.running = true) (ht : s.carrier.setThisTick = false) :
    ∃ l, l.length ≤ 2 ∧ ∃ n, (markRephase s).1 = { s with
      carrier := { s.carrier with position := s.carrier.offset, rerun := rerunAfter s.carrier }
      gate := (markRephase s).1.gate
      setpoint := (markRephase s).1.setpoint
      host := { s.host with reports := postAll l s.host.reports }
      free := n } := by
  have hc : ({ (noteRerun s).carrier with position := s.carrier.offset, setThisTick := false } : Carrier) =
      { s.carrier with position := s.carrier.offset, rerun := rerunAfter s.carrier } := by rw [← ht]; rfl
  obtain ⟨h1, h2⟩ := markRephase_spec s hr ht
  cases h : rephaseLoads s.carrier with
  | false =>
    rw [h1 h]; refine ⟨[], by simp, s.free, ?_⟩
    have e := advanceTo_eq s.carrier.offset (noteRerun s)
    have sp : (advanceTo s.carrier.offset (noteRerun s)).setpoint = s.setpoint := by rw [e]; rfl
    dsimp only; rw [sp]; conv_lhs => rw [e]
    rw [hc]; rfl
  | true =>
    obtain ⟨f, n, -, e⟩ := h2 h
    obtain ⟨g, eg, -⟩ := loadAt_spec s.carrier.offset f { noteRerun s with free := n }
    obtain ⟨l, hl, el⟩ := load_eq { noteRerun s with free := n }
    rw [e, eg]; refine ⟨l, hl, n, ?_⟩
    conv_lhs => rw [el]
    rw [hc]; rfl

/-! ## Loads and judgements in RUNNING -/

theorem judgeGates_running {s : State} (h : s.station = .running) :
    judgeGates s = { s with gate := { s.gate with
      legs := s.gate.legs.map fun l => judgeLeg (demand l.mode l.compare (carrierNow s)) l } } := by
  unfold judgeGates; rw [if_pos h]

/-- A load point reached by a running carrier (R104): an advance with a load in either order, then the STARVED cause. -/
theorem loadPointStep_running {s : State} (position : LoadPosition) (hr : s.carrier.running = true)
    (hl : settingHas s.carrier.loadSetting position = true) :
    loadPointStep position s =
      raiseStarved (loadAt (loadPositionAt s.carrier position) (Config.firstOfTwo s.free) { s with free := s.free + 1 }).2
        (loadAt (loadPositionAt s.carrier position) (Config.firstOfTwo s.free) { s with free := s.free + 1 }).1 := by
  unfold loadPointStep; rw [if_pos ⟨hr, hl⟩]; rfl

/-- A load never lengthens the queue (R124, R126). -/
theorem load_queue_length (s : State) : (load s).1.setpoint.queue.length ≤ s.setpoint.queue.length := by
  have dq : (discardStale s).setpoint.queue.length ≤ s.setpoint.queue.length := by
    unfold discardStale; dsimp only; split
    · exact le_refl _
    · exact List.length_dropWhile_le _ _
  unfold load; split
  · unfold queueLoad; dsimp only; split
    · rename_i h
      have : (starvedLoad (discardStale s)).1.setpoint.queue = (discardStale s).setpoint.queue := by
        unfold starvedLoad; dsimp only; split <;> rfl
      rw [this]; exact dq
    · rename_i r rest h; rw [h] at dq; simp at dq ⊢; omega
  · unfold patternLoad; dsimp only; repeat' split
    all_goals exact le_refl _

end Sys2Proof.Machine
end

