-- ==== Sys2Proof/Laws/Sets.lean ====
section
/-! SUPPORT. Sets of stations: what each operation does to membership (00, Station numbers, sets and ranks). -/

namespace Sys2Proof.Machine

theorem stations_eq : stations = List.finRange 16 := by decide

theorem mem_stations (k : StationNo) : k ∈ stations := by rw [stations_eq]; exact List.mem_finRange k

theorem nodup_stations : stations.Nodup := by decide

/-- Two sets with the same members are the same set. -/
theorem set_ext {a b : StationSet} (h : ∀ k, member k a = member k b) : a = b := by
  apply BitVec.eq_of_getLsbD_eq
  intro i hi
  exact h ⟨i, hi⟩

@[simp] theorem member_zero (k : StationNo) : member k 0#16 = false := by simp [member]

@[simp] theorem member_single (j k : StationNo) : member j (single k) = decide (j = k) := by
  simp only [member, single, BitVec.getLsbD_twoPow, Fin.ext_iff]
  have := j.isLt
  by_cases h : j.val = k.val <;> simp [h, eq_comm]

@[simp] theorem member_or (k : StationNo) (a b : StationSet) : member k (a ||| b) = (member k a || member k b) := by
  simp [member]

@[simp] theorem member_adjoin (j k : StationNo) (set : StationSet) :
    member j (adjoin k set) = (member j set || decide (j = k)) := by simp [adjoin]

@[simp] theorem member_without (k : StationNo) (set other : StationSet) :
    member k (without set other) = (member k set && !member k other) := by
  simp [member, without]

@[simp] theorem member_remove (j k : StationNo) (set : StationSet) :
    member j (remove k set) = (member j set && !decide (j = k)) := by
  rw [← member_single, ← member_without]; rfl

/-- A set is empty exactly where it has no member. -/
theorem set_eq_zero {set : StationSet} : set = 0 ↔ ∀ k, member k set = false :=
  ⟨fun h k => by simp [h], fun h => set_ext fun k => by simp [h k]⟩

theorem subset_iff {set other : StationSet} :
    subset set other = true ↔ ∀ k, member k set = true → member k other = true := by
  simp only [subset, beq_iff_eq, set_eq_zero, member_without, Bool.and_eq_false_iff, Bool.not_eq_false']
  exact forall_congr' fun k => by cases member k set <;> simp


/-- The fold of `setOf`, from any set and over any list of stations. -/
theorem member_setOf_fold (test : StationNo → Bool) (k : StationNo) (list : List StationNo) (set : StationSet) :
    member k (list.foldl (fun set k => if test k then adjoin k set else set) set) =
      (member k set || (decide (k ∈ list) && test k)) := by
  induction list generalizing set with
  | nil => simp
  | cons j rest ih =>
    rw [List.foldl_cons, ih]
    by_cases h : k = j
    · subst h
      cases test k <;> simp
    · cases test j <;> simp [h]

@[simp] theorem member_setOf (test : StationNo → Bool) (k : StationNo) : member k (setOf test) = test k := by
  simp [setOf, member_setOf_fold, mem_stations]

@[simp] theorem mem_members (k : StationNo) (set : StationSet) : k ∈ members set ↔ member k set = true := by
  simp [members, mem_stations]

/-- The members come in increasing order. -/
theorem members_sorted (set : StationSet) : (members set).Pairwise (· < ·) :=
  List.Pairwise.filter _ (by decide)

/-- A set names no station at or above S exactly where every member lies below S. -/
theorem setBelow_iff (c : StationCount) (set : StationSet) :
    setBelow c set = true ↔ ∀ k, member k set = true → k.val < countOf c := by
  cases c with
  | s16 => simp [setBelow, countOf]
  | s8 =>
    simp only [setBelow, beq_iff_eq, countOf, highByte]
    constructor
    · intro h k hk
      by_contra hlt
      have := congrArg (fun b : Byte => b.getLsbD (k.val - 8)) h
      simp only [BitVec.getLsbD_extractLsb'] at this
      rw [show 8 + (k.val - 8) = k.val by omega] at this
      simp only [member] at hk
      have hk16 := k.isLt
      simp [show k.val - 8 < 8 by omega] at this
      rw [BitVec.getLsbD_eq_getElem hk16] at hk
      simp_all
    · intro h
      apply BitVec.eq_of_getLsbD_eq
      intro i hi
      simp only [BitVec.getLsbD_extractLsb', hi, decide_true, Bool.true_and]
      by_contra hc
      have := h ⟨8 + i, by omega⟩ (by simpa [member] using hc)
      simp at this

end Sys2Proof.Machine
end

