-- ==== Sys2Proof/Laws/Changes.lean ====
section
/-! SUPPORT. What the steps of the Change Unit and of a mark can do: the re-check, the loss re-judgement, the two ends of an
application, the mark event and the agreement on a cycle number (R10, R18, R39, R49, R56, R59, R61 to R70). -/

namespace Sys2Proof.Machine

/-! ## Sets of a change -/

/-- The electorate of a set (R49, R68). -/
theorem mem_electorateOf (s : State) (set : StationSet) (k : StationNo) :
    member k (electorateOf s set) = true ↔ member k set = true ∧ (k = s.number ∨ inStanding s k = true) := by
  simp [electorateOf]

/-- The tally is complete when every elector but the proposer has accepted (R56). -/
theorem tallyComplete_iff (c : Slot) : tallyComplete c = true ↔
    ∀ k, member k c.electorate = true → k ≠ c.proposer → member k c.accepts = true := by
  unfold tallyComplete; rw [subset_iff]; simp

/-- The first member of a sorted list that meets a test. -/
theorem find?_of_sorted {p : StationNo → Bool} {l : List StationNo} (hs : l.Pairwise (· < ·)) {k : StationNo} (hk : k ∈ l)
    (hp : p k = true) (hl : ∀ j ∈ l, j < k → p j = false) : l.find? p = some k := by
  induction l with
  | nil => simp at hk
  | cons a r ih =>
    rw [List.find?_cons]
    rcases List.mem_cons.1 hk with rfl | hk'
    · simp [hp]
    · have : a < k := (List.pairwise_cons.1 hs).1 k hk'
      rw [hl a (by simp) this]
      exact ih (List.pairwise_cons.1 hs).2 hk' (fun j hj => hl j (by simp [hj]))

/-! ## Re-check, notice, loss re-judgement -/

/-- A re-check changes the slot alone: not at all, or to a PENDING automatic DROP (R68, R70). -/
theorem recheck_spec (s : State) :
    recheck s = { s with change := { s.change with slot := (recheck s).change.slot } } ∧
      ((recheck s).change.slot = s.change.slot ∨
        (recheck s).change.slot.automatic = true ∧ (recheck s).change.slot.state = .pending) := by
  unfold recheck; split
  · exact ⟨rfl, .inr ⟨rfl, rfl⟩⟩
  · exact ⟨rfl, .inl rfl⟩

/-- A notice leaves the station state, the roster, the trip record, the gates and the view (R59). -/
theorem takeNotice_keeps (x : StationNo) (why : NoticeCause) (loss : Bool) (s : State) :
    (takeNotice x why loss s).station = s.station ∧ (takeNotice x why loss s).roster = s.roster ∧
      (takeNotice x why loss s).trip = s.trip ∧ (takeNotice x why loss s).gate = s.gate ∧
      (takeNotice x why loss s).change.view = s.change.view ∧
      (takeNotice x why loss s).change.profile = s.change.profile := by
  have r : ∀ u, (recheck u).station = u.station ∧ (recheck u).roster = u.roster ∧ (recheck u).trip = u.trip ∧
      (recheck u).gate = u.gate ∧ (recheck u).change.view = u.change.view ∧
      (recheck u).change.profile = u.change.profile := by
    intro u; rw [(recheck_spec u).1]; exact ⟨rfl, rfl, rfl, rfl, rfl, rfl⟩
  unfold takeNotice; dsimp only
  repeat' split
  all_goals first
    | exact ⟨rfl, rfl, rfl, rfl, rfl, rfl⟩
    | exact r _

/-- The loss re-judgement where PEER_LOSS does not trip (R39): the lost set is judged anew, with one report at most. -/
theorem rejudgeView_mild (admitted : StationSet) (s : State) (h : (rowOf s.tables .peerLoss).action ≠ .trip) :
    ∃ l, l.length ≤ 1 ∧ ∃ n w, rejudgeView admitted s = { s with
      roster := { s.roster with lost := setOf fun k => isLost s k && !entering admitted s k }
      host := { s.host with reports := postAll l s.host.reports }
      free := n
      now := { s.now with waiting := w } } := by
  unfold rejudgeView; dsimp only; split
  · exact ⟨[], by simp, s.free, s.now.waiting, rfl⟩
  · rename_i lo rest hh
    obtain ⟨l, hl, n, w, e⟩ := raiseCause_mild .peerLoss lo none (judgeView admitted s) h
    exact ⟨l, hl, n, w, by rw [e]; rfl⟩

/-- The members of a judged view that an application makes newly lost (R38, R39). -/
theorem member_judgeView (admitted : StationSet) (s : State) (k : StationNo) :
    member k (judgeView admitted s).roster.lost = true ↔ isLost s k = true ∧ entering admitted s k = false := by
  simp [judgeView]

/-! ## The claim of an application (R64, R98, R115, R127) -/

/-- The carrier that an application starts or re-phases (R98). -/
def appliedCarrier (s : State) (c : Slot) : Carrier :=
  let p := profileAt s.tables c.newProfile
  let o := phaseOffset p (periodOf s.tables.link p) s.number c.newSet
  { running := true, period := periodOf s.tables.link p, shape := some p.shape, loadSetting := some p.loadSetting,
    offset := o, position := o, setThisTick := true, rerun := 0 }

/-- The claim of an application whose new set has the station: RUNNING, its carrier at the new offset, two reports at most. -/
theorem applyClaim_running (c : Slot) (s : State) (hm : member s.number c.newSet = true) :
    ∃ l, l.length ≤ 2 ∧ ∃ (sp : SetpointUnit) (g : Gate),
      (applyClaim c s).1 = { s with
        station := .running
        change := { s.change with view := c.newSet, profile := c.newProfile }
        carrier := appliedCarrier s c, setpoint := sp, gate := g
        host := { s.host with reports := postAll l s.host.reports } } ∧
      g.deadTime = (profileAt s.tables c.newProfile).deadTime := by
  unfold applyClaim stateAfter; dsimp only; rw [hm]; simp only [if_true]
  generalize hu : setpointReset (carrierStart { s with
    station := .running, change := { s.change with view := c.newSet, profile := c.newProfile } }) = u
  obtain ⟨l, hl, e⟩ := load_eq u
  refine ⟨l, hl, (load u).1.setpoint, (gateApply (load u).1).gate, ?_, ?_⟩
  · rw [gateApply_eq]
    have ee : ∀ g, ({ (load u).1 with gate := g } : State) = { u with
        setpoint := (load u).1.setpoint, host := { u.host with reports := postAll l u.host.reports }, gate := g } := by
      intro g; conv_lhs => rw [e]
    rw [ee, ← hu]; rfl
  · rw [gateApply_deadTime]
    have : liveProfile (load u).1 = liveProfile u := by unfold liveProfile; rw [e]
    rw [this, ← hu]; rfl

/-- The claim of an application whose new set does not have the station: JOINED, the outputs off, and nothing reported. -/
theorem applyClaim_joined (c : Slot) (s : State) (hm : member s.number c.newSet = false)
    (hs : s.station = .joined ∨ s.station = .running)
    (hc : s.station = .joined → s.carrier = Carrier.stopped ∧ s.gate = Gate.off) :
    ∃ discord, applyClaim c s = ({ s with
      station := .joined
      change := { s.change with view := c.newSet, profile := c.newProfile, viewDiscord := discord }
      carrier := Carrier.stopped, gate := Gate.off
      setpoint := if s.station = .running then SetpointUnit.empty
        else { SetpointUnit.empty with queue := s.setpoint.queue } }, false) := by
  unfold applyClaim stateAfter; dsimp only; rw [hm]
  rcases hs with h | h <;> simp only [h]
  · refine ⟨s.change.viewDiscord, ?_⟩
    obtain ⟨h1, h2⟩ := hc h
    rw [← h1, ← h2]; rfl
  · exact ⟨_, rfl⟩

/-! ## The mark event -/

/-- The Change Unit's mark event keeps what Steady names, and empties the refresh collection (R35, R61). -/
theorem changeMark_spec (s : State) :
    ∃ u, Steady s u ∧ changeMark s = { u with change := { u.change with collection := [] } } := by
  unfold changeMark; dsimp only
  have h1 : Steady s (if inGroup s = true then deadline s else s) := by
    split
    · exact steady_deadline s
    · exact .refl s
  generalize (if inGroup s = true then deadline s else s) = u at h1 ⊢
  have h2 : Steady u (if u.station = .joined ∧ (s.change.slot.state == .vacant) = true then refreshView u else u) := by
    split
    · exact steady_refreshView u
    · exact .refl u
  generalize (if u.station = .joined ∧ (s.change.slot.state == .vacant) = true then refreshView u else u) = v at h2 ⊢
  exact ⟨v, h1.trans h2, rfl⟩

/-- What neither the re-phase nor the Change Unit's mark event changes. -/
structure MarkKeeps (s t : State) : Prop where
  link : t.link = s.link
  number : t.number = s.number
  tables : t.tables = s.tables
  entries : t.roster.entries = s.roster.entries
  mismatch : t.roster.mismatch = s.roster.mismatch

theorem MarkKeeps.of {s t : State} (h : Steady s t) : MarkKeeps s t :=
  ⟨h.link, h.number, h.tables, h.entries, h.mismatch⟩

theorem MarkKeeps.trans {s t u : State} (h : MarkKeeps s t) (k : MarkKeeps t u) : MarkKeeps s u :=
  ⟨k.link.trans h.link, k.number.trans h.number, k.tables.trans h.tables, k.entries.trans h.entries,
    k.mismatch.trans h.mismatch⟩

theorem changeMark_keeps (s : State) : MarkKeeps s (changeMark s) ∧ (changeMark s).change.collection = [] := by
  obtain ⟨u, h, e⟩ := changeMark_spec s
  rw [e]; exact ⟨⟨h.link, h.number, h.tables, h.entries, h.mismatch⟩, rfl⟩

/-- The same where a trip claim may come before it or after it (R65, R128). -/
theorem changeAfterLoad_keeps (raised : Bool) (s : State) :
    MarkKeeps s (changeAfterLoad raised s) ∧ (changeAfterLoad raised s).change.collection = [] := by
  have after : ∀ u v : State, Steady u v → MarkKeeps u (changeMark v) ∧ (changeMark v).change.collection = [] :=
    fun u v h => ⟨(MarkKeeps.of h).trans (changeMark_keeps v).1, (changeMark_keeps v).2⟩
  have before : ∀ u : State, MarkKeeps u (raiseStarved true (changeMark u)) ∧
      (raiseStarved true (changeMark u)).change.collection = [] := fun u =>
    ⟨(changeMark_keeps u).1.trans (MarkKeeps.of (steady_raiseStarved _ _)), by
      rw [(steady_raiseStarved _ _).collection]; exact (changeMark_keeps u).2⟩
  unfold changeAfterLoad chooseFirst; dsimp only
  repeat' split
  · exact after _ _ (steady_takeOwnCause ..)
  · exact after _ _ ((steady_free _ s).trans (steady_takeOwnCause ..))
  · exact ⟨(MarkKeeps.of (steady_free _ s)).trans (before _).1, (before _).2⟩
  · exact after _ _ (steady_raiseStarved ..)

/-- The mark event, whichever block is first (R10, R35, R102): the link, the tables and the entries stand, the mismatch flag is
clear and the collection empty. -/
theorem markEvent_keeps (s : State) :
    MarkKeeps { s with roster := { s.roster with mismatch := false } } (markEvent s) ∧
      (markEvent s).change.collection = [] := by
  obtain ⟨u, hu⟩ : ∃ u, u = ({ s with roster := { s.roster with mismatch := false } } : State) := ⟨_, rfl⟩
  have e : markEvent s = if u.carrier.running then
      (if Config.firstOfTwo u.free then
        changeAfterLoad (markRephase { u with free := u.free + 1 }).2 (markRephase { u with free := u.free + 1 }).1
      else raiseStarved (markRephase (changeMark { u with free := u.free + 1 })).2
        (markRephase (changeMark { u with free := u.free + 1 })).1) else changeMark u := by rw [hu]; rfl
  rw [e, ← hu]
  have hf : MarkKeeps u { u with free := u.free + 1 } := ⟨rfl, rfl, rfl, rfl, rfl⟩
  repeat' split
  · obtain ⟨h1, h2⟩ := changeAfterLoad_keeps (markRephase { u with free := u.free + 1 }).2
      (markRephase { u with free := u.free + 1 }).1
    exact ⟨(hf.trans (MarkKeeps.of (steady_markRephase _))).trans h1, h2⟩
  · have h := (steady_markRephase (changeMark { u with free := u.free + 1 })).trans
      (steady_raiseStarved (markRephase (changeMark { u with free := u.free + 1 })).2 _)
    exact ⟨(hf.trans (changeMark_keeps _).1).trans (MarkKeeps.of h), by rw [h.collection]; exact (changeMark_keeps _).2⟩
  · exact changeMark_keeps u

/-- Stage 3 of a mark (R18): the tally is emptied, the number and the discord flag are those of the agreement's case, and the
tables and the roster stand. -/
theorem agreeNumber_spec (s : State) :
    (agreeNumber s).link = { s.link with
      tally := [], cycle := (agreeNumber s).link.cycle, discord := (agreeNumber s).link.discord } ∧
    (agreeNumber s).number = s.number ∧ (agreeNumber s).tables = s.tables ∧ (agreeNumber s).roster = s.roster ∧
    (match agreement s.link.cycle s.link.tally with
      | .agrees => (agreeNumber s).link.cycle = s.link.cycle + 1 ∧ (agreeNumber s).link.discord = false
      | .slips v => (agreeNumber s).link.cycle = v + 1 ∧ (agreeNumber s).link.discord = false
      | .differs => (agreeNumber s).link.cycle = s.link.cycle + 1 ∧ (agreeNumber s).link.discord = true) := by
  have rc : ∀ x, (recheck x).roster = x.roster := by intro x; rw [(recheck_spec x).1]
  cases hA : agreement s.link.cycle s.link.tally with
  | agrees =>
    have : agreeNumber s = { numberCycle (s.link.cycle + 1) s with
        link := { (numberCycle (s.link.cycle + 1) s).link with discord := false } } := by
      unfold agreeNumber; dsimp only; rw [hA]
    rw [this]; exact ⟨rfl, rfl, rfl, rfl, rfl, rfl⟩
  | slips v =>
    obtain ⟨x, hx⟩ : ∃ x, x = postSelf (.cycleSlip s.link.cycle (s.change.slot.state != .vacant))
        { numberCycle (v + 1) s with link := { (numberCycle (v + 1) s).link with discord := false } } := ⟨_, rfl⟩
    have : agreeNumber s = if s.change.slot.state != .vacant then
        closeAndRecheck .slipped x.change.slot.proposer .noReason x else x := by
      unfold agreeNumber; dsimp only; rw [hA, hx]
    rw [this]
    split
    · have h := steady_closeAndRecheck .slipped x.change.slot.proposer .noReason x
      rw [h.link, h.number, h.tables]
      refine ⟨?_, ?_, ?_, ?_, ?_, ?_⟩
      · rw [hx]; rfl
      · rw [hx]; rfl
      · rw [hx]; rfl
      · unfold closeAndRecheck; rw [rc, hx]; rfl
      · rw [hx]; rfl
      · rw [hx]; rfl
    · rw [hx]; exact ⟨rfl, rfl, rfl, rfl, rfl, rfl⟩
  | differs =>
    have : agreeNumber s = if s.link.discord then numberCycle (s.link.cycle + 1) s
        else { postSelf (.cycleDiscord s.link.tally.length (distinctValues s.link.tally).length)
            (numberCycle (s.link.cycle + 1) s) with
          link := { (numberCycle (s.link.cycle + 1) s).link with discord := true } } := by
      unfold agreeNumber; dsimp only; rw [hA]; rfl
    rw [this]
    split
    · rename_i h; exact ⟨rfl, rfl, rfl, rfl, rfl, h⟩
    · exact ⟨rfl, rfl, rfl, rfl, rfl, rfl⟩

end Sys2Proof.Machine
end

