-- ==== Sys2Proof/Laws/Codecs.lean ====
section
/-! SUPPORT. The layouts: packed fields are read back as they were written (R20, R164, R166). -/

namespace Sys2Proof.Machine

/-! ## Packed fields -/

/-- The fields below a packed field are read from below it. -/
theorem extract_append_low {n m : Nat} (a : BitVec n) (b : BitVec m) (k w : Nat) (h : k + w ≤ m) :
    (a ++ b).extractLsb' k w = b.extractLsb' k w := by
  apply BitVec.eq_of_getLsbD_eq
  intro i hi
  simp [BitVec.getLsbD_append, show k + i < m by omega]

/-- The fields above a packed field are read from above it. -/
theorem extract_append_high {n m : Nat} (a : BitVec n) (b : BitVec m) (k w : Nat) (h : m ≤ k) :
    (a ++ b).extractLsb' k w = a.extractLsb' (k - m) w := by
  apply BitVec.eq_of_getLsbD_eq
  intro i hi
  simp [BitVec.getLsbD_append, show ¬k + i < m by omega, show k + i - m = k - m + i by omega]

@[simp] theorem extract_all {n : Nat} (a : BitVec n) : a.extractLsb' 0 n = a := by
  apply BitVec.eq_of_getLsbD_eq
  intro i hi
  simp

/-- The low field of a byte of two nibbles. -/
theorem low_nibble (x y : BitVec 4) : BitVec.extractLsb' (n := 8) 0 4 (y ++ x) = x :=
  (extract_append_low y x 0 4 (by decide)).trans (extract_all x)

/-- The high field of a byte of two nibbles. -/
theorem high_nibble (x y : BitVec 4) : BitVec.extractLsb' (n := 8) 4 4 (y ++ x) = y :=
  (extract_append_high y x 4 4 (by decide)).trans (extract_all y)

/-- The low field of a byte with a nibble, three bits and one bit. -/
theorem low_of_431 (x : BitVec 4) (y : BitVec 3) (z : BitVec 1) : BitVec.extractLsb' (n := 8) 0 4 (z ++ y ++ x) = x :=
  (extract_append_low (z ++ y) x 0 4 (by decide)).trans (extract_all x)

/-- The middle field of a byte with a nibble, three bits and one bit. -/
theorem middle_of_431 (x : BitVec 4) (y : BitVec 3) (z : BitVec 1) : BitVec.extractLsb' (n := 8) 4 3 (z ++ y ++ x) = y :=
  ((extract_append_high (z ++ y) x 4 3 (by decide)).trans (extract_append_low z y 0 3 (by decide))).trans (extract_all y)

@[simp] theorem wordOf_bytes (w : Word16) : wordOf (lowByte w) (highByte w) = w := by
  apply BitVec.eq_of_getLsbD_eq
  intro i hi
  simp only [wordOf, lowByte, highByte, BitVec.getLsbD_append, BitVec.getLsbD_extractLsb']
  split
  · simp [*]
  · simp [show i - 8 < 8 by omega, show 8 + (i - 8) = i by omega]

theorem toNat_wordOf (low high : Byte) : (wordOf low high).toNat = low.toNat + 256 * high.toNat := by
  have := low.isLt
  simp only [wordOf, BitVec.toNat_append]
  rw [Nat.shiftLeft_eq, Nat.mul_comm, ← Nat.two_pow_add_eq_or_of_lt this]
  omega

theorem toNat_extract (b : Byte) (k w : Nat) : (b.extractLsb' k w).toNat = b.toNat / 2 ^ k % 2 ^ w := by
  simp [BitVec.extractLsb'_toNat, Nat.shiftRight_eq_div_pow]

@[simp] theorem advOf_advCode (st : AdvState) : advOf (advCode st) = some st := by cases st <;> rfl

@[simp] theorem verdictOf_code (v : Verdict) : verdictOf (0#5 ++ verdictCode v) = some v := by cases v <;> rfl

@[simp] theorem modeOf_modeCode (m : LegMode) : modeOf (modeCode m) = some m := by cases m <;> rfl

@[simp] theorem stationOf_field (k : StationNo) : stationOf (stationField k) = k := rfl

theorem modeOf_isSome (code : BitVec 4) : (modeOf code).isSome = decide (code.toNat ≤ 3) := by revert code; decide

theorem modeCode_of_modeOf {code : BitVec 4} {m : LegMode} (h : modeOf code = some m) : modeCode m = code := by
  revert m code; decide

/-! ## Leg settings (R164, R166) -/

/-- A field with a mode that a code names and a compare value in range gives a setting with both. -/
theorem legSetting_eq_some {field : BitVec 4 × Word16} {setting : LegSetting} :
    legSetting field = some setting ↔ modeOf field.1 = some setting.mode ∧ setting.compare = field.2 := by
  obtain ⟨mode, compare⟩ := setting
  simp only [legSetting, Option.map_eq_some_iff, LegSetting.mk.injEq]
  constructor
  · rintro ⟨m, h, rfl, rfl⟩; exact ⟨h, rfl⟩
  · rintro ⟨h, rfl⟩; exact ⟨mode, h, rfl, rfl⟩

theorem legFields_legBytes (legs : PerLeg LegSetting) : legFields (legBytes legs) =
    { a := (modeCode legs.a.mode, legs.a.compare), b := (modeCode legs.b.mode, legs.b.compare),
      c := (modeCode legs.c.mode, legs.c.compare) } := by
  simp [legFields, legBytes, low_nibble, high_nibble]

/-! ## Table entries (R151, R155, R156, R157, R166) -/

/-- The packed fields of byte 0 of a LINK entry. -/
theorem link_byte0 (valid : Bool) (p : Polarity) (c : StationCount) (d : Divisor) :
    let b : Byte := 0#3 ++ flag valid ++ flag (p == .activeLow) ++ flag (c == .s16) ++ divisorCode d
    b.extractLsb' 0 2 = divisorCode d ∧ b.getLsbD 2 = (c == .s16) ∧ b.getLsbD 3 = (p == .activeLow) := by
  cases valid <;> cases p <;> cases c <;> cases d <;> decide

theorem linkOf_linkBytes {l : LinkTable} (n : StationNo) (h : linkInRange l) :
    linkOf (linkBytes l n) = .ok { l with valid := true } := by
  obtain ⟨h1, h2, h3, h4, h5, h6, h7, h8⟩ := h
  obtain ⟨divisor, count, length, lead, misses, code, group, starve, fault, polarity, valid⟩ := l
  dsimp only at *
  have e5 : BitVec.extractLsb' (n := 8) 0 2 (stationField n ++ 0#2 ++ group) = group :=
    (extract_append_low _ group 0 2 (by decide)).trans (extract_all group)
  obtain ⟨d0, d2, d3⟩ := link_byte0 valid polarity count divisor
  have c0 : (if (count == .s16) = true then StationCount.s16 else .s8) = count := by cases count <;> rfl
  have p0 : (if (polarity == .activeLow) = true then Polarity.activeLow else .activeHigh) = polarity := by cases polarity <;> rfl
  have dd : (if divisorCode divisor = 0 then Divisor.d4 else if divisorCode divisor = 1 then .d8 else .d16) = divisor := by
    cases divisor <;> rfl
  have dne : divisorCode divisor ≠ 3 := by cases divisor <;> decide
  unfold linkOf linkBytes
  simp only [Vector.getElem_mk, List.getElem_toArray, List.getElem_cons_zero, List.getElem_cons_succ, low_of_431, middle_of_431,
    low_nibble, high_nibble, e5, wordOf_bytes, BitVec.toNat_ofNat, d0, d2, d3, c0, p0, dd]
  simp only [show length % 2 ^ 16 = length by omega, show lead % 2 ^ 4 = lead by omega, show misses % 2 ^ 3 = misses by omega,
    show starve % 2 ^ 4 = starve by omega, show fault % 2 ^ 4 = fault by omega]
  rw [if_neg dne, if_neg (by omega), if_neg (by omega), if_neg (by omega)]

/-- The packed fields of byte 0 of a PROFILE entry. -/
theorem profile_byte0 (source : Source) (load : LoadSetting) (interleave : Bool) (shape : Shape) (ratio : Ratio)
    (configured : Bool) :
    let b : Byte := flag (source == .pattern) ++ loadCode load ++ flag interleave ++ flag (shape == .saw) ++ ratioCode ratio
      ++ flag configured
    b.extractLsb' 1 2 = ratioCode ratio ∧ b.extractLsb' 5 2 = loadCode load ∧ b.getLsbD 0 = configured ∧
      b.getLsbD 3 = (shape == .saw) ∧ b.getLsbD 4 = interleave ∧ b.getLsbD 7 = (source == .pattern) := by
  cases source <;> cases load <;> cases interleave <;> cases shape <;> cases ratio <;> cases configured <;> decide

/-- The packed flags of byte 2 of a PROFILE entry. -/
theorem profile_byte2 (again c b a : Bool) :
    let x : Byte := 0#4 ++ flag again ++ flag c ++ flag b ++ flag a
    x.getLsbD 0 = a ∧ x.getLsbD 1 = b ∧ x.getLsbD 2 = c ∧ x.getLsbD 3 = again := by
  cases again <;> cases c <;> cases b <;> cases a <;> decide

theorem profileOf_profileBytes {p : Profile} (h : profileInRange p) : profileOf (profileBytes p) = .ok p := by
  obtain ⟨h1, h2, h3, h4, h5⟩ := h
  obtain ⟨configured, ratio, shape, dead, interleave, load, ⟨ea, eb, ec⟩, source, start, length, again⟩ := p
  dsimp only at *
  have e3 : BitVec.extractLsb' (n := 8) 0 6 (0#2 ++ BitVec.ofNat 6 start) = BitVec.ofNat 6 start :=
    (extract_append_low _ _ 0 6 (by decide)).trans (extract_all _)
  have e4 : BitVec.extractLsb' (n := 8) 0 7 (0#1 ++ BitVec.ofNat 7 length) = BitVec.ofNat 7 length :=
    (extract_append_low _ _ 0 7 (by decide)).trans (extract_all _)
  obtain ⟨r0, l0, c0, s0, i0, q0⟩ := profile_byte0 source load interleave shape ratio configured
  obtain ⟨xa, xb, xc, xr⟩ := profile_byte2 again ec eb ea
  have rr : (if ratioCode ratio = 0 then Ratio.n1 else if ratioCode ratio = 1 then .n2 else .n4) = ratio := by
    cases ratio <;> rfl
  have ll : (if loadCode load = 0 then LoadSetting.valley else if loadCode load = 1 then .peak else .both) = load := by
    cases load <;> rfl
  have ss : (if (shape == .saw) = true then Shape.saw else .triangle) = shape := by cases shape <;> rfl
  have qq : (if (source == .pattern) = true then Source.pattern else .queue) = source := by cases source <;> rfl
  have rne : ratioCode ratio ≠ 3 := by cases ratio <;> decide
  have lne : loadCode load ≠ 3 := by cases load <;> decide
  have dne : BitVec.ofNat 8 dead ≠ 0 := by
    intro h; have := congrArg BitVec.toNat h; simp at this; omega
  unfold profileOf profileBytes
  simp only [Vector.getElem_mk, List.getElem_toArray, List.getElem_cons_zero, List.getElem_cons_succ, e3, e4, r0, l0, c0, s0, i0,
    q0, xa, xb, xc, xr, rr, ll, ss, qq, BitVec.toNat_ofNat]
  simp only [show start % 2 ^ 6 = start by omega, show length % 2 ^ 7 = length by omega, show dead % 2 ^ 8 = dead by omega]
  rw [if_neg rne, if_neg dne, if_neg lne, if_neg (by omega)]

theorem causeOf_causeBytes {i : Fin 9} {r : CauseRow} (h : rowAllowed i r) : causeOf i (causeBytes r) = .ok r := by
  obtain ⟨action, drive⟩ := r
  revert h; unfold rowAllowed
  revert i; cases action <;> cases drive <;> decide

theorem patternOf_legBytes (e : PerLeg LegSetting) : patternOf (legBytes e) = .ok e := by
  have h : ∀ x : LegSetting, legSetting (modeCode x.mode, x.compare) = some x := fun x => by simp [legSetting_eq_some]
  have w : ∀ c : Word16, c.toNat ≤ 65535 := fun c => by have := c.isLt; omega
  unfold patternOf legSettings
  simp [legFields_legBytes, h, w]

/-! ## What a write stores lies in range (R152, R155, R156) -/

theorem linkOf_range {t : Vector Byte 8} {l : LinkTable} (h : linkOf t = .ok l) : linkInRange l := by
  unfold linkOf at h; dsimp only at h
  generalize (if t[0].getLsbD 2 = true then StationCount.s16 else .s8) = count at h
  split at h
  · cases h
  split at h
  · cases h
  split at h
  · cases h
  split at h
  · cases h
  · injection h with h; subst h
    have q : ∀ x : BitVec 4, x.toNat ≤ 15 := fun x => by have := x.isLt; omega
    exact ⟨by dsimp only; omega, by dsimp only; omega, by dsimp only; omega, q _, by dsimp only; omega, by dsimp only; omega,
      q _, q _⟩

theorem profileOf_range {t : Vector Byte 8} {p : Profile} (h : profileOf t = .ok p) : profileInRange p := by
  unfold profileOf at h; dsimp only at h
  split at h
  · cases h
  split at h
  · cases h
  split at h
  · cases h
  split at h
  · cases h
  · rename_i h1 h2 h3 h4
    injection h with h; subst h
    have a := t[1].isLt
    have b : (BitVec.extractLsb' 0 6 t[3]).toNat < 64 := (BitVec.extractLsb' 0 6 t[3]).isLt
    have c : t[1].toNat ≠ 0 := by intro q; apply h2; apply BitVec.eq_of_toNat_eq; simpa using q
    exact ⟨by dsimp only; omega, by dsimp only; omega, by dsimp only; omega, by dsimp only; omega, by dsimp only; omega⟩

theorem causeOf_range {i : Fin 9} {t : Vector Byte 8} {r : CauseRow} (h : causeOf i t = .ok r) : rowAllowed i r := by
  unfold causeOf at h; dsimp only at h
  repeat' split at h
  all_goals first | (cases h; done) | skip
  all_goals (injection h with h; subst h; simp_all [rowAllowed])

end Sys2Proof.Machine
end

