-- ==== Sys2Proof/Laws/Kept.lean ====
section
/-! SUPPORT. Said once: what every step is made of. A property that each elementary update keeps, under what its callers know, is
kept by every command and by the tick. -/

namespace Sys2Proof.Machine

/-- The property is kept by every elementary update of the state but four: power-on, the entry into LISTENING, a TWRITE, and the
application of a change, which `Kept.exec` takes apart because only one command makes each of them. -/
structure Kept (P : State → Prop) : Prop where
  host : ∀ s h, P s → (s.host.reports.length ≤ 16 → h.reports.length ≤ 16) → P { s with host := h }
  free : ∀ s n, P s → P { s with free := n }
  pins : ∀ s p, P s → P { s with pins := p }
  pending : ∀ s l, P s → P { s with pending := l }
  now : ∀ s m, P s → P { s with now := m }
  /-- The acquisition record and the Link Engine. -/
  wires : ∀ s a l, P s → P { s with acq := a, link := l }
  /-- The filters, the settle ticks, the end of a settle. -/
  trip : ∀ s t, P s → t.first = s.trip.first → t.causes = s.trip.causes → t.entry = s.trip.entry → t.drive = s.trip.drive →
    (t.settling = true → s.trip.settling = true) → P { s with trip := t }
  /-- CLEAR. -/
  settle : ∀ s, P s → s.station = .tripped →
    P { s with trip := { s.trip with drive := false, settling := true, settled := 0 } }
  added : ∀ s c drive, P s → s.station = .tripped →
    P { s with trip := { s.trip with causes := s.trip.causes ||| causeBit c, drive := drive } }
  cleared : ∀ s, P s → s.station = .tripped → P { s with
    station := .joined
    trip := { s.trip with
      first := none, causes := 0, entry := 0, drive := false, tripLine := Filter.quiet, settling := false, settled := 0 }
    change := { s.change with viewDiscord := false } }
  tripped : ∀ s c drive x kind, P s → inGroup s = true → P (tripEntry c drive x kind s)
  withdrawn : ∀ s, P s → P (withdrawalResets s)
  joined : ∀ s n timer, P s → s.station = .listening → P (enterJoined n timer s)
  /-- The slot emptied. -/
  vacated : ∀ s, P s → P (setSlot Slot.vacant s)
  drop : ∀ s, P s → dropDue s = true → P (setSlot (dropProposal s) s)
  proposed : ∀ s newSet (p : Byte), P s → inGroup s = true → s.change.slot.state = .vacant →
    profileUnfit s.tables newSet p = false → memberNotStanding s newSet = none →
    P (setSlot (localProposal s false newSet (p.setWidth 3) (electorateOf s (s.change.view ||| newSet))) s)
  adopted : ∀ s f p, P s → inGroup s = true → f.sender ≠ s.number → f.sender.val < stationCount s →
    malformed s.tables.link.count f = false → f.part = .proposal p → P (setSlot (adoptedSlot s f p) s)
  sent : ∀ s q e, P s → inGroup s = true → s.change.slot.state = .pending → P { s with
    change := { s.change with
      slot := { s.change.slot with state := .opened, sequence := some s.change.sequence, effective := e }, sequence := q } }
  counted : ∀ s accepts, P s → s.change.slot.state = .opened →
    P (setSlot { s.change.slot with accepts := accepts } s)
  judged : ∀ s, P s → P (setSlot (judgeTally s.change.slot) s)
  collect : ∀ s f, P s → onLink s = true → malformed s.tables.link.count f = false → f.state = .running →
    P { s with change := { s.change with collection := s.change.collection ++ [(f.set, f.profile)] } }
  emptied : ∀ s, P s → P { s with change := { s.change with collection := [] } }
  discord : ∀ s b, P s → s.station ≠ .offline → P { s with change := { s.change with viewDiscord := b } }
  hold : ∀ s b, P s → s.station ≠ .offline → P { s with change := { s.change with hold := b } }
  /-- The view refresh of a JOINED station. -/
  pair : ∀ s pair, P s → s.station = .joined → s.change.slot.state = .vacant → member s.number pair.1 = false →
    pair = (0, 0) ∨ pair ∈ s.change.collection →
    P (judgeView 0 { s with change := { s.change with view := pair.1, profile := pair.2, viewDiscord := false } })
  entry : ∀ s k e, P s → s.station ≠ .offline → k ≠ s.number → k.val < stationCount s → P (setEntry k e s)
  judgeLost : ∀ s k, P s → onLink s = true → P (judgeLost k s)
  mismatch : ∀ s b, P s → s.station ≠ .offline → P { s with roster := { s.roster with mismatch := b } }
  /-- The carrier moves. -/
  advance : ∀ s c, P s → s.carrier.running = true → c.running = true → P { s with carrier := c }
  unmarked : ∀ s, P s → P { s with carrier := { s.carrier with setThisTick := false } }
  gates : ∀ s g, P s → s.station = .running →
    ((∀ leg, legSafe (s.gate.legs.get leg)) → ∀ leg, legSafe (g.legs.get leg)) → P { s with gate := g }
  counts : ∀ s, P s → P (tickGates s).1
  load : ∀ s, P s → s.carrier.running = true → P (load s).1
  /-- PUSH and FLUSH. -/
  queue : ∀ s q, P s → (s.setpoint.queue.length ≤ 4 → q.length ≤ 4) → P { s with setpoint := { s.setpoint with queue := q } }

/-- The application of a change keeps the property, up to the judgement of the new view (R64, R39). -/
def KeptByApply (P : State → Prop) : Prop :=
  ∀ s, P s → inGroup s = true → s.change.slot.state = .agreed →
    P (judgeView (without s.change.slot.newSet s.change.view)
      (closeSlot .applied s.change.slot.proposer .noReason (applyClaim s.change.slot s).1))

/-- A property of both arms of a test. -/
theorem Kept.cases {P : State → Prop} {c : Prop} [Decidable c] {a b : State} (ha : c → P a) (hb : ¬c → P b) : P (if c then a else b) := by
  split
  · exact ha ‹_›
  · exact hb ‹_›

namespace Kept

variable {P : State → Prop} (K : Kept P)
include K

/-! ## Reports, results, causes -/

theorem acq (s : State) (a : Acquisition) (h : P s) : P { s with acq := a } := K.wires s a s.link h

theorem link (s : State) (l : Link) (h : P s) : P { s with link := l } := K.wires s s.acq l h

theorem post (body : ReportBody) (x : StationNo) {s : State} (h : P s) : P (post body x s) :=
  K.host _ _ h fun hl => length_arrive_le hl _

theorem postSelf (body : ReportBody) {s : State} (h : P s) : P (postSelf body s) := K.post _ _ h

theorem setResult (code : ResultCode) (d : Byte) {s : State} (h : P s) : P (setResult code d s) := K.host _ _ h id

theorem setResultOpen (code : ResultCode) {s : State} (h : P s) : P (setResultOpen code s) :=
  K.setResult _ _ (K.free _ _ h)

theorem closeSlot (o : ChangeOutcome) (x : StationNo) (r : CloseReason) {s : State} (h : P s) : P (closeSlot o x r s) :=
  K.vacated _ (K.post _ _ h)

theorem abandonSlot (r : CloseReason) {s : State} (h : P s) : P (abandonSlot r s) := by
  unfold Machine.abandonSlot; split
  · exact K.vacated _ h
  · exact K.closeSlot _ _ _ h

theorem addCause (c : Cause) (x : StationNo) (kind : Option MismatchKind) {s : State} (h : P s) (ht : s.station = .tripped) :
    P (addCause c x kind s) := by
  unfold Machine.addCause; dsimp only
  split
  · exact h
  · have k := K.post (.tripAdded c (s.trip.drive || (rowOf s.tables c).drive) kind) x (K.added s c (s.trip.drive || (rowOf s.tables c).drive) h ht)
    unfold endClearOnFault
    split
    · split
      · exact K.setResult _ _ (K.trip _ _ k rfl rfl rfl rfl (by simp))
      · exact k
    all_goals exact k

theorem takeCause (c : Cause) (x : StationNo) (kind : Option MismatchKind) {s : State} (h : P s) : P (takeCause c x kind s) := by
  rcases takeCause_cases c x kind s with e | e | ⟨hs, e⟩ | ⟨hs, e⟩ <;> rw [e]
  · exact h
  · exact K.post _ _ h
  · exact K.tripped _ _ _ _ _ h (by unfold inGroup; rcases hs with hs | hs <;> simp [hs])
  · exact K.addCause _ _ _ h hs

theorem raiseCause (c : Cause) (x : StationNo) (kind : Option MismatchKind) {s : State} (h : P s) :
    P (raiseCause c x kind s) := by
  rcases raiseCause_cases c x kind s with e | ⟨-, e | e⟩ <;> rw [e]
  · exact K.takeCause _ _ _ h
  · exact K.takeCause _ _ _ (K.free _ _ h)
  · exact K.free _ (s.free + 1) (K.now s { s.now with waiting := s.now.waiting ++ [.cause ⟨c, x, kind⟩] } h)

theorem raiseStarved (b : Bool) {s : State} (h : P s) : P (raiseStarved b s) := by
  cases b
  · exact h
  · rcases raiseStarved_cases s with e | ⟨-, n, e | e⟩ <;> rw [e]
    · exact K.takeCause _ _ _ h
    · exact K.takeCause _ _ _ (K.free _ n h)
    · exact K.free _ n (K.now s { s.now with waiting := s.now.waiting ++ [.cause ⟨.starved, s.number, none⟩] } h)

theorem raiseTripLine {s : State} (h : P s) : P (raiseTripLine s) := by
  unfold Machine.raiseTripLine takeOwnCause; split
  · exact K.takeCause _ _ _ h
  · exact h

theorem withdraw (cause : WithdrawalCause) {s : State} (h : P s) : P (withdraw cause s) := by
  unfold Machine.withdraw endClearOnWithdrawal; dsimp only
  refine K.postSelf _ (K.withdrawn _ (K.abandonSlot _ ?_))
  split
  · exact K.setResultOpen _ h
  · exact h

theorem mismatchWithdraw (reason : LinkMismatchReason) (foreign : Byte) {s : State} (h : P s) :
    P (mismatchWithdraw reason foreign s) := K.withdraw _ (K.postSelf _ h)

/-! ## Gates, loads, the re-phase -/

theorem judgeGates {s : State} (h : P s) : P (judgeGates s) := by
  unfold Machine.judgeGates; split
  · rename_i hr
    exact K.gates _ _ h hr fun _ leg => by simpa using legSafe_judgeLeg _ _
  · exact h

theorem takeLive {s : State} (h : P s) : P (takeLive s) := by
  unfold Machine.takeLive; split
  · rename_i hr
    exact K.gates _ _ h hr fun hl leg => by
      cases leg
      · exact legSafe_takeSetting _ _ (hl .a)
      · exact legSafe_takeSetting _ _ (hl .b)
      · exact legSafe_takeSetting _ _ (hl .c)
  · exact h

theorem gateLoad {s : State} (h : P s) : P (gateLoad s) := K.judgeGates (K.takeLive h)

theorem advanceTo (position : Nat) {s : State} (h : P s) (hr : s.carrier.running = true) : P (advanceTo position s) :=
  K.judgeGates (K.advance _ _ h hr hr)

theorem loadAt (position : Nat) (loadFirst : Bool) {s : State} (h : P s) (hr : s.carrier.running = true) :
    P (loadAt position loadFirst s).1 := by
  have running : ∀ u : State, (Machine.load u).1.carrier = u.carrier := fun u => by
    obtain ⟨_, -, e⟩ := load_eq u; rw [e]
  rw [loadAt_eq]; split
  · refine K.advanceTo _ (K.gateLoad (K.load _ (K.advance _ _ h hr hr) hr)) ?_
    rw [gateLoad_eq, running]; exact hr
  · refine K.gateLoad (K.load _ (K.advanceTo _ h hr) ?_)
    rw [advanceTo_eq]; exact hr

theorem advanceAndLoad (position : Nat) {s : State} (h : P s) (hr : s.carrier.running = true) :
    P (advanceAndLoad position s).1 := K.loadAt _ _ (K.free _ _ h) hr

theorem markRephase {s : State} (h : P s) : P (markRephase s).1 := by
  unfold Machine.markRephase; dsimp only
  split
  · rename_i hr
    have n : P (noteRerun s) := K.advance _ _ h hr.1 hr.1
    repeat' split
    · exact K.advanceAndLoad _ n hr.1
    · exact K.loadAt _ _ n hr.1
    · exact K.advanceTo _ n hr.1
  · exact h

/-! ## The Change Unit -/

theorem recheck {s : State} (h : P s) : P (recheck s) := by
  unfold Machine.recheck; split
  · exact K.drop _ h ‹_›
  · exact h

theorem closeAndRecheck (o : ChangeOutcome) (x : StationNo) (r : CloseReason) {s : State} (h : P s) :
    P (closeAndRecheck o x r s) := K.recheck (K.closeSlot _ _ _ h)

theorem takeNotice (x : StationNo) (why : NoticeCause) (loss : Bool) {s : State} (h : P s) : P (takeNotice x why loss s) := by
  unfold Machine.takeNotice; dsimp only
  repeat' split
  all_goals first
    | exact h | exact K.recheck h | exact K.recheck (K.vacated _ h) | exact K.closeAndRecheck _ _ _ h

theorem deliverNotice (x : StationNo) (why : NoticeCause) (loss : Bool) {s : State} (h : P s) :
    P (deliverNotice x why loss s) := by
  have trip : ∀ u, P u → P (if loss then Machine.raiseCause .peerLoss x none u else u) := by
    intro u hu; split
    · exact K.raiseCause _ _ _ hu
    · exact hu
  unfold Machine.deliverNotice chooseFirst; dsimp only
  split
  · split
    · exact K.takeNotice _ _ _ (trip _ (K.free _ _ h))
    · exact trip _ (K.takeNotice _ _ _ (K.free _ _ h))
  · exact K.takeNotice _ _ _ (trip _ h)

theorem judgeEntry (k : StationNo) (before : RosterEntry) {s : State} (h : P s) (hl : onLink s = true) :
    P (judgeEntry k before s) := by
  unfold Machine.judgeEntry; dsimp only; split
  · exact K.deliverNotice _ _ _ (K.judgeLost _ _ h hl)
  · exact K.judgeLost _ _ h hl

/-- The loss event of a view that has just been judged (R39). -/
theorem rejudgeView {admitted : StationSet} {s : State} (h : P (judgeView admitted s)) : P (rejudgeView admitted s) := by
  unfold Machine.rejudgeView; dsimp only; split
  · exact h
  · exact K.raiseCause _ _ _ h

theorem adopt (f : Frame) (p : Proposal) {s : State} (h : P (setSlot (adoptedSlot s f p) s)) : P (adopt f p s) := by
  have k := K.post (.changeOpened (cyclesTo s p.effective) p.sequence true false (adoptedSlot s f p).verdict) f.sender h
  exact K.judged _ k

theorem takeProposal (f : Frame) (p : Proposal) {s : State} (h : P s) (hg : inGroup s = true) (hn : f.sender ≠ s.number)
    (hS : f.sender.val < stationCount s) (hm : malformed s.tables.link.count f = false) (hp : f.part = .proposal p) :
    P (takeProposal f p s) := by
  unfold Machine.takeProposal; dsimp only
  split
  · split
    · exact K.adopt f p (K.adopted _ f p h hg hn hS hm hp)
    · split
      · exact K.adopt f p (K.adopted (setSlot Slot.vacant s) f p (K.vacated _ h) hg hn hS hm hp)
      · exact K.adopt f p (K.adopted (Machine.closeSlot .withdrawn f.sender .contended s) f p (K.closeSlot _ _ _ h) hg hn hS hm hp)
    · exact h
    · exact h
  · exact h

theorem takeVote (f : Frame) (v : Vote) {s : State} (h : P s) : P (takeVote f v s) := by
  unfold Machine.takeVote; dsimp only
  split
  · rename_i hc
    repeat' split
    · exact h
    · have k := K.counted s (adjoin f.sender s.change.slot.accepts) h hc.1
      exact K.judged _ k
    · exact K.closeAndRecheck _ _ _ h
    · exact h
    · exact K.closeAndRecheck _ _ _ h
  · exact h

theorem takeContent (f : Frame) {s : State} (h : P s) (hl : onLink s = true) (hn : f.sender ≠ s.number)
    (hS : f.sender.val < stationCount s) (hm : malformed s.tables.link.count f = false) : P (takeContent f s) := by
  have part : ∀ u, P u → u.number = s.number → u.tables = s.tables → P (if inGroup u then
      match f.part with
      | .base => u
      | .proposal p => Machine.takeProposal f p u
      | .vote v => Machine.takeVote f v u
    else u) := by
    intro u hu en et
    split
    · rename_i hg
      split
      · exact hu
      · rename_i p hp
        exact K.takeProposal f p hu hg (by rw [en]; exact hn) (by unfold stationCount; rw [et]; exact hS) (by rw [et]; exact hm) hp
      · exact K.takeVote _ _ hu
    · exact hu
  unfold Machine.takeContent; dsimp only
  split
  · split
    · exact part _ (K.collect _ f h hl hm ‹_›) rfl rfl
    · exact part _ h rfl rfl
  · exact h

theorem judgeMismatch (f : Frame) {s : State} (h : P s) : P (judgeMismatch f s) := by
  unfold Machine.judgeMismatch; split
  · exact h
  · rename_i kind hk
    split
    · exact h
    · refine K.raiseCause _ _ _ (K.mismatch _ _ h ?_)
      unfold mismatchOf at hk
      split at hk
      · simp [*]
      · cases hk

theorem hearFrame (k : StationNo) (f : Frame) {s : State} (h : P s) (ho : s.station ≠ .offline) (hn : k ≠ s.number)
    (hS : k.val < stationCount s) : P (hearFrame k f s) := by
  unfold Machine.hearFrame; dsimp only; split
  · exact K.entry _ _ _ h ho hn hS
  · exact K.post _ _ (K.entry _ _ _ h ho hn hS)

end Kept

/-- Nothing of a hand-over takes a station off the link: a trip is on the link too. -/
theorem onLink_takeCause (c : Cause) (x : StationNo) (kind : Option MismatchKind) {s : State} (h : onLink s = true) :
    onLink (takeCause c x kind s) = true := by
  rcases takeCause_cases c x kind s with e | e | ⟨hs, e⟩ | ⟨hs, e⟩ <;> rw [e]
  · exact h
  · exact h
  · rfl
  · unfold addCause endClearOnFault; dsimp only
    repeat' split
    all_goals exact h

theorem onLink_raiseCause (c : Cause) (x : StationNo) (kind : Option MismatchKind) {s : State} (h : onLink s = true) :
    onLink (raiseCause c x kind s) = true := by
  rcases raiseCause_cases c x kind s with e | ⟨-, e | e⟩ <;> rw [e]
  · exact onLink_takeCause _ _ _ h
  · exact onLink_takeCause c x kind (s := { s with free := s.free + 1 }) h
  · exact h

theorem station_recheck (s : State) : (recheck s).station = s.station := by
  unfold recheck; split <;> rfl

theorem station_takeNotice (x : StationNo) (why : NoticeCause) (loss : Bool) (s : State) :
    (takeNotice x why loss s).station = s.station := by
  unfold takeNotice closeAndRecheck; dsimp only
  repeat' split
  all_goals first | rfl | exact station_recheck _

theorem onLink_congr {s t : State} (h : t.station = s.station) : onLink t = onLink s := by unfold onLink; rw [h]

theorem onLink_deliverNotice (x : StationNo) (why : NoticeCause) (loss : Bool) {s : State}
    (h : onLink s = true) : onLink (deliverNotice x why loss s) = true := by
  have trip : ∀ u, onLink u = true → onLink (if loss then raiseCause .peerLoss x none u else u) = true := by
    intro u hu; split
    · exact onLink_raiseCause _ _ _ hu
    · exact hu
  have notice : ∀ u, onLink u = true → onLink (takeNotice x why loss u) = true := fun u hu => by
    rw [onLink_congr (station_takeNotice x why loss u)]; exact hu
  unfold deliverNotice chooseFirst; dsimp only
  split
  · split
    · exact notice _ (trip _ h)
    · exact trip _ (notice _ h)
  · exact notice _ (trip _ h)

theorem onLink_judgeEntry (k : StationNo) (before : RosterEntry) {s : State} (h : onLink s = true) :
    onLink (judgeEntry k before s) = true := by
  unfold judgeEntry; dsimp only; split
  · exact onLink_deliverNotice _ _ _ h
  · exact h

theorem station_hearFrame (k : StationNo) (f : Frame) (s : State) : (hearFrame k f s).station = s.station := by
  unfold hearFrame; dsimp only; split <;> rfl

theorem tables_hearFrame (k : StationNo) (f : Frame) (s : State) : (hearFrame k f s).tables = s.tables := by
  unfold hearFrame; dsimp only; split <;> rfl

theorem number_hearFrame (k : StationNo) (f : Frame) (s : State) : (hearFrame k f s).number = s.number := by
  unfold hearFrame; dsimp only; split <;> rfl

theorem onLink_judgeMismatch (f : Frame) {s : State} (h : onLink s = true) : onLink (judgeMismatch f s) = true := by
  unfold judgeMismatch; repeat' split
  · exact h
  · exact h
  · exact onLink_raiseCause _ _ _ h

theorem tables_judgeMismatch (f : Frame) (s : State) : (judgeMismatch f s).tables = s.tables := by
  unfold judgeMismatch; repeat' split
  · rfl
  · rfl
  · exact (steady_raiseCause ..).tables

theorem number_judgeMismatch (f : Frame) (s : State) : (judgeMismatch f s).number = s.number := by
  unfold judgeMismatch; repeat' split
  · rfl
  · rfl
  · exact (steady_raiseCause ..).number

/-- A valid check names a frame of the window, with a link code of the table and no malformed condition (R14, R27). -/
theorem checkFrame_valid {l : LinkTable} {k : StationNo} {bytes : List Byte} {f : Frame}
    (h : checkFrame l k bytes = .valid f) : f.sender = k ∧ f.linkCode = l.linkCode ∧ malformed l.count f = false := by
  unfold checkFrame at h
  split at h
  · cases h
  · split at h
    · cases h
    · split at h
      · injection h with h; subst h; simp_all
      · cases h

namespace Kept

variable {P : State → Prop} (K : Kept P)
include K

theorem handOver (f : Frame) {s : State} (h : P s) (hl : onLink s = true) (hn : f.sender ≠ s.number)
    (hS : f.sender.val < stationCount s) (hm : malformed s.tables.link.count f = false) : P (handOver f.sender f s) := by
  have ho : s.station ≠ .offline := by intro e; simp [onLink, e] at hl
  have l1 : onLink (Machine.hearFrame f.sender f s) = true := by rw [onLink_congr (station_hearFrame ..)]; exact hl
  have l2 := onLink_judgeEntry f.sender (entryOf s f.sender) l1
  have l3 := onLink_judgeMismatch f l2
  have e1 := steady_judgeEntry f.sender (entryOf s f.sender) (Machine.hearFrame f.sender f s)
  have en : (Machine.judgeMismatch f (Machine.judgeEntry f.sender (entryOf s f.sender) (Machine.hearFrame f.sender f s))).number
      = s.number := by rw [number_judgeMismatch, e1.number, number_hearFrame]
  have et : (Machine.judgeMismatch f (Machine.judgeEntry f.sender (entryOf s f.sender) (Machine.hearFrame f.sender f s))).tables
      = s.tables := by rw [tables_judgeMismatch, e1.tables, tables_hearFrame]
  have judged := K.judgeMismatch f (K.judgeEntry f.sender (entryOf s f.sender) (K.hearFrame f.sender f h ho hn hS) l1)
  unfold Machine.handOver; dsimp only; split
  · exact K.takeContent f judged l3 (by rw [en]; exact hn) (by unfold stationCount; rw [et]; exact hS) (by rw [et]; exact hm)
  · exact K.now _ _ judged

theorem takePostponed (p : Postponed) {s : State} (h : P s) : P (takePostponed p s) := by
  cases p with
  | cause r => exact K.takeCause _ _ _ h
  | content f =>
    refine Kept.cases (fun hp => ?_) fun _ => h
    simp only [fromPeer, Bool.and_eq_true, bne_iff_ne, ne_eq, decide_eq_true_eq, Bool.not_eq_true'] at hp
    exact K.takeContent f h hp.1.1.1 hp.1.1.2 hp.1.2 hp.2

/-! ## Marks -/

theorem applyChange (A : KeptByApply P) {s : State} (h : P s) (hg : inGroup s = true) (ha : s.change.slot.state = .agreed) :
    P (applyChange s) := by
  rw [applyChange_eq]
  exact K.raiseStarved _ (K.recheck (K.rejudgeView (A s h hg ha)))

theorem deadline (A : KeptByApply P) {s : State} (h : P s) (hg : inGroup s = true) : P (deadline s) := by
  unfold Machine.deadline; dsimp only
  repeat' split
  all_goals first | exact h | exact K.applyChange A h hg ‹_› | exact K.closeAndRecheck _ _ _ h

theorem takePair (pair : StationSet × ProfileNo) {s : State} (h : P s) (hs : s.station = .joined)
    (hv : s.change.slot.state = .vacant) (hn : member s.number pair.1 = false)
    (hp : pair = (0, 0) ∨ pair ∈ s.change.collection) : P (takePair pair s) := K.rejudgeView (K.pair s pair h hs hv hn hp)

theorem refreshDiscord {s : State} (h : P s) (hs : s.station = .joined) : P (refreshDiscord s) := by
  unfold Machine.refreshDiscord; split
  · exact h
  · exact K.discord _ _ (K.postSelf _ h) (by show s.station ≠ _; simp [hs])

theorem refreshView {s : State} (h : P s) (hs : s.station = .joined) (hv : s.change.slot.state = .vacant) :
    P (refreshView s) := by
  unfold Machine.refreshView
  split
  · exact K.takePair _ h hs hv (by simp) (.inl rfl)
  · split
    · exact K.refreshDiscord h hs
    · rename_i pair hp
      split
      · exact K.refreshDiscord h hs
      · rename_i hn
        refine K.takePair _ h hs hv (by simpa using hn) (.inr ?_)
        unfold commonPair at hp
        split at hp
        · cases hp
        · split at hp
          · rename_i e _; rw [e]; cases hp; simp
          · cases hp

end Kept

/-- A deadline that finds the slot NONE does nothing (R61). -/
theorem deadline_vacant {s : State} (h : s.change.slot.state = .vacant) : deadline s = s := by
  unfold deadline; dsimp only; rw [h]; split <;> rfl

namespace Kept

variable {P : State → Prop} (K : Kept P)
include K

theorem changeMark (A : KeptByApply P) {s : State} (h : P s) : P (changeMark s) := by
  have d : P (if inGroup s then Machine.deadline s else s) := by
    split
    · exact K.deadline A h ‹_›
    · exact h
  unfold Machine.changeMark; dsimp only
  refine K.emptied _ ?_
  by_cases hv : s.change.slot.state = .vacant
  · simp only [deadline_vacant hv, ite_self]
    split
    · rename_i hr
      exact K.refreshView h hr.1 hv
    · exact h
  · rw [if_neg (by simp [hv])]
    exact d

theorem agreeNumber {s : State} (h : P s) : P (agreeNumber s) := by
  unfold Machine.agreeNumber; dsimp only
  split
  · exact K.link _ _ (K.link _ _ h)
  · have k : ∀ v, P (Machine.postSelf (.cycleSlip s.link.cycle (s.change.slot.state != .vacant))
        { numberCycle (v + 1) s with link := { (numberCycle (v + 1) s).link with discord := false } }) :=
      fun v => K.postSelf _ (K.link _ _ (K.link _ _ h))
    split
    · exact K.closeAndRecheck _ _ _ (k _)
    · exact k _
  · split
    · exact K.link _ _ h
    · exact K.link _ _ (K.postSelf _ (K.link _ _ h))

theorem changeAfterLoad (A : KeptByApply P) (raised : Bool) {s : State} (h : P s) : P (changeAfterLoad raised s) := by
  unfold Machine.changeAfterLoad chooseFirst takeOwnCause; dsimp only
  repeat' split
  · exact K.changeMark A (K.takeCause _ _ _ h)
  · exact K.changeMark A (K.takeCause _ _ _ (K.free _ _ h))
  · exact K.raiseStarved _ (K.changeMark A (K.free _ _ h))
  · exact K.changeMark A (K.raiseStarved _ h)

theorem markEvent (A : KeptByApply P) {s : State} (h : P s) (ho : s.station ≠ .offline) : P (markEvent s) := by
  unfold Machine.markEvent chooseFirst; dsimp only
  have k := K.mismatch _ false h ho
  repeat' split
  · exact K.changeAfterLoad A _ (K.markRephase (K.free _ _ k))
  · exact K.raiseStarved _ (K.markRephase (K.changeMark A (K.free _ _ k)))
  · exact K.changeMark A k

end Kept

theorem station_agreeNumber (s : State) : (agreeNumber s).station = s.station := by
  unfold agreeNumber closeAndRecheck; dsimp only
  repeat' split
  all_goals first | rfl | exact station_recheck _

namespace Kept

variable {P : State → Prop} (K : Kept P)
include K

theorem linkMark (A : KeptByApply P) (interval : Nat) {s : State} (h : P s) (ho : s.station ≠ .offline) :
    P (linkMark interval s) := by
  unfold Machine.linkMark; dsimp only
  have k := K.link { s with carrier := { s.carrier with setThisTick := false } } { s.link with shorts := shortsAfter s interval }
    (K.unmarked _ h)
  split
  · exact K.mismatchWithdraw _ _ k
  · refine K.markEvent A (K.agreeNumber (K.link _ _ k)) ?_
    rw [station_agreeNumber]; exact ho

theorem acquired (n : CycleNo) {s : State} (h : P s) (hs : s.station = .listening) : P (acquired n s) :=
  K.raiseTripLine (K.postSelf _ (K.joined _ _ _ h hs))

theorem acquisitionMark (interval : Nat) {s : State} (h : P s) (hs : s.station = .listening) : P (acquisitionMark interval s) := by
  unfold Machine.acquisitionMark failedLock listenMark; dsimp only
  have k := K.mismatch (markRestart s) false (K.link _ _ h) (by show s.station ≠ _; simp [hs])
  repeat' split
  all_goals first
    | exact K.acq _ _ k | exact K.mismatchWithdraw _ _ (K.acq _ _ k) | exact K.mismatchWithdraw _ _ k
    | exact K.acquired _ k hs

/-! ## Windows -/

theorem firstTransmission {s : State} (h : P s) : P (firstTransmission s) := by
  unfold Machine.firstTransmission; dsimp only; split
  · rename_i hc
    have k := K.sent s (s.change.sequence + 1) (s.link.cycle + BitVec.ofNat 16 s.tables.link.lead) h hc.2 hc.1
    exact K.judged _ (K.postSelf _ k)
  · exact h

theorem ownWindow {s : State} (h : P s) : P (ownWindow s) := K.link _ _ (K.firstTransmission h)

theorem judgeReadback {s : State} (h : P s) : P (judgeReadback s) := by
  unfold Machine.judgeReadback; dsimp only
  repeat' split
  · exact h
  · exact K.withdraw _ (K.postSelf _ (K.link _ _ h))
  · exact K.link _ _ h
  · exact K.link _ _ h

theorem spoilWindow (k : StationNo) {s : State} (h : P s) : P (spoilWindow k s) := by
  unfold Machine.spoilWindow; dsimp only
  repeat' split
  · exact K.link _ _ (K.link _ _ h)
  · exact K.link _ _ h
  · exact h

theorem completeFrame (k : StationNo) (bytes : List Byte) {s : State} (h : P s) : P (completeFrame k bytes s) := by
  have readBack : P (Machine.readBack bytes s) := by
    unfold Machine.readBack; repeat' split
    all_goals first | exact h | exact K.link _ _ h
  unfold Machine.completeFrame timed
  split
  · rename_i hc
    simp only [Bool.and_eq_true, decide_eq_true_eq] at hc
    split
    · rename_i hl
      unfold linkFrame; split
      · exact K.link _ _ readBack
      · split
        · rename_i hk _ f hf
          obtain ⟨rfl, -, hm⟩ := checkFrame_valid hf
          exact K.handOver f (K.link _ _ (K.link _ _ h)) hl hk hc.1.2 hm
        all_goals exact K.link _ _ h
    · rename_i hl
      have hs : s.station ≠ .offline := by
        intro e; simp [receiving, onLink, e] at hc
      unfold listenFrame; split
      · exact K.link _ _ h
      · exact K.mismatchWithdraw _ _ h
      · split
        · exact K.withdraw _ (K.postSelf _ h)
        · rename_i hk
          have k := K.hearFrame k ‹_› (K.link s { s.link with rx := .handedOver } h) hs hk hc.1.2
          unfold takeNumber; split
          · exact K.wires _ _ _ k
          · exact k
  · exact h

theorem endWindow (k : StationNo) {s : State} (h : P s) : P (endWindow k s) := by
  unfold Machine.endWindow timed; dsimp only
  split
  · rename_i hc
    simp only [Bool.and_eq_true, decide_eq_true_eq] at hc
    have hs : s.station ≠ .offline := by
      intro e; simp [receiving, onLink, e] at hc
    obtain ⟨l, hl⟩ : ∃ l, (if k = s.number ∧ onLink s = true then overrunReadback s else s) = { s with link := l } := by
      unfold overrunReadback failReadback; repeat' split
      all_goals exact ⟨_, rfl⟩
    rw [hl]
    have h : P { s with link := l } := K.link _ _ h
    have hn : k.val < stationCount { s with link := l } := hc.2
    have hs : ({ s with link := l } : State).station ≠ .offline := hs
    have hk : ({ s with link := l } : State).number = s.number := rfl
    rw [← hk]
    generalize ({ s with link := l } : State) = s at h hn hs hk ⊢
    have c : P (closeWindow k s) := K.link _ _ h
    split
    · split
      · exact K.judgeReadback c
      · exact c
    · rename_i hk
      split
      · have m : P (missFrame k (closeWindow k s)) := by
          unfold missFrame; dsimp only
          split
          · exact c
          · exact c
          · split
            · exact K.entry _ _ _ c hs hk hn
            · exact K.post _ _ (K.entry _ _ _ c hs hk hn)
        unfold takeMiss; dsimp only; split
        · rename_i hj
          refine K.judgeEntry _ _ m ?_
          have : (missFrame k (closeWindow k s)).station = s.station := by
            unfold missFrame; dsimp only; repeat' split
            all_goals rfl
          rw [onLink_congr this]
          simp only [Bool.and_eq_true] at hj
          exact hj.1.1
        · exact m
      · exact c
  · exact h

/-! ## Host commands -/

theorem issue (code : Byte) {f : State → State} {s : State} (hf : ∀ u, P u → P (f u)) (h : P s) : P (issue code f s) :=
  hf _ (K.host _ _ h id)

theorem reportFaults {s : State} (h : P s) : P (reportFaults s) := by
  unfold Machine.reportFaults
  generalize faultInputs = l
  induction l generalizing s with
  | nil => exact h
  | cons i rest ih =>
    rw [List.foldl_cons]
    apply ih
    split
    · exact K.postSelf _ h
    · exact h

theorem joinStep {s : State}
    (J : ∀ s, P s → s.station = .offline → firstInvalid s.tables s.number = none → P (enterListening s)) (h : P s) :
    P (joinStep s) := by
  unfold Machine.joinStep refuseState; split
  · exact K.setResult _ _ h
  · rename_i ho
    split
    · exact K.setResult _ _ h
    · rename_i hv
      split
      · exact K.setResult _ _ h
      · exact K.setResultOpen _ (K.reportFaults (J _ h (by simpa using ho) hv))

theorem leaveStep {s : State} (h : P s) : P (leaveStep s) := by
  unfold Machine.leaveStep; repeat' split
  all_goals first | exact K.setResultOpen _ h | exact K.setResultOpen _ (K.withdraw _ h)

theorem proposeStep {s : State} (h : P s) : P (proposeStep s) := by
  unfold Machine.proposeStep refuseState; dsimp only
  split
  · exact K.setResult _ _ h
  split
  · exact K.setResult _ _ h
  split
  · exact K.setResult _ _ h
  split
  · exact K.setResult _ _ h
  split
  · exact K.setResult _ _ h
  · exact K.setResult _ _ (K.proposed _ _ _ h (by simpa using ‹¬inGroup s = false›) (by simpa using ‹¬s.change.slot.state ≠ .vacant›)
      (by simpa using ‹¬profileUnfit _ _ _ = true›) ‹_›)

theorem holdStep (b : Bool) {s : State} (h : P s) : P (holdStep b s) := by
  unfold Machine.holdStep; dsimp only; split
  · exact K.setResult _ _ h
  · exact K.setResult _ _ (K.hold _ _ h ‹_›)

theorem clearStep {s : State} (h : P s) : P (clearStep s) := by
  unfold Machine.clearStep refuseState clearRelease; split
  · exact K.setResult _ _ h
  · rename_i ht
    split
    · exact K.setResult _ _ h
    · exact K.setResult _ _ (K.settle _ h (by simpa using ht))

theorem clearSampleStep (low : Bool) {s : State} (h : P s) : P (clearSampleStep low s) := by
  unfold Machine.clearSampleStep; dsimp only
  split
  · rename_i hc
    have k := K.trip s { s.trip with settling := false, settled := 0 } h rfl rfl rfl rfl (by simp)
    split
    · exact K.setResult _ _ (K.addCause _ _ _ k hc.1)
    · exact K.setResultOpen _ (K.cleared _ (K.postSelf _ k) hc.1)
  · exact h

theorem stopStep {s : State} (h : P s) : P (stopStep s) := by
  unfold Machine.stopStep refuseState; split
  · exact K.setResult _ _ h
  · exact K.setResult _ _ h
  · exact K.setResult _ _ (K.tripped _ _ _ _ _ h (by simp [inGroup, *]))
  · exact K.setResult _ _ (K.tripped _ _ _ _ _ h (by simp [inGroup, *]))
  · split
    · exact K.setResult _ _ h
    · exact K.setResult _ _ (K.addCause _ _ _ h ‹_›)

theorem pushStep {s : State} (h : P s) : P (pushStep s) := by
  unfold Machine.pushStep refuseState; dsimp only
  split
  · exact K.setResult _ _ h
  split
  · exact K.setResult _ _ h
  split
  · exact K.setResult _ _ h
  split
  · exact K.setResult _ _ h
  · exact K.setResult _ _ (K.queue _ _ h fun _ => by simp; omega)

theorem flushStep {s : State} (h : P s) : P (flushStep s) := K.setResult _ _ (K.queue _ _ h fun _ => by simp)

theorem treadStep {s : State} (h : P s) : P (treadStep s) := by
  have stage : ∀ b, P (stage b s) := fun b => K.setResult _ _ (K.host _ _ h id)
  unfold Machine.treadStep refuseIndex; dsimp only
  repeat' split
  all_goals first
    | exact stage _ | exact K.setResult _ _ h
    | exact K.setResult _ _ (K.host { s with host := _ } _ (K.host s _ h id) id)

theorem commandStep (code : Byte) {s : State}
    (J : code = 0x01 → ∀ s, P s → s.station = .offline → firstInvalid s.tables s.number = none → P (enterListening s))
    (W : code = 0x0C → ∀ s, P s → P (twriteStep s)) (h : P s) : P (commandStep code s) := by
  unfold Machine.commandStep
  refine Kept.cases (fun _ => K.issue _ (fun _ hu => K.setResult _ _ hu) h) fun _ => ?_
  refine Kept.cases (fun e => K.issue _ (fun _ hu => K.joinStep (J e) hu) h) fun _ => ?_
  refine Kept.cases (fun _ => K.issue _ (fun _ hu => K.leaveStep hu) h) fun _ => ?_
  refine Kept.cases (fun _ => K.issue _ (fun _ hu => K.setResultOpen _ (K.withdraw _ hu)) h) fun _ => ?_
  refine Kept.cases (fun _ => K.issue _ (fun _ hu => K.proposeStep hu) h) fun _ => ?_
  refine Kept.cases (fun _ => K.issue _ (fun _ hu => K.holdStep _ hu) h) fun _ => ?_
  refine Kept.cases (fun _ => K.issue _ (fun _ hu => K.holdStep _ hu) h) fun _ => ?_
  refine Kept.cases (fun _ => K.issue _ (fun _ hu => K.clearStep hu) h) fun _ => ?_
  refine Kept.cases (fun _ => K.issue _ (fun _ hu => K.stopStep hu) h) fun _ => ?_
  refine Kept.cases (fun _ => K.issue _ (fun _ hu => K.pushStep hu) h) fun _ => ?_
  refine Kept.cases (fun _ => K.issue _ (fun _ hu => K.flushStep hu) h) fun _ => ?_
  refine Kept.cases (fun _ => K.issue _ (fun _ hu => K.treadStep hu) h) fun _ => ?_
  refine Kept.cases (fun e => K.issue _ (W e) h) fun _ => ?_
  exact Kept.cases (fun _ => K.host _ _ h id) fun _ => K.issue _ (fun _ hu => K.setResult _ _ hu) h

theorem writeRegister (address : BitVec 7) (value : Byte) {s : State} (h : P s) : P (writeRegister address value s) := by
  unfold Machine.writeRegister; repeat' split
  all_goals exact K.host _ _ h id

/-! ## Carrier and level events -/

theorem loadPointStep (position : LoadPosition) {s : State} (h : P s) : P (loadPointStep position s) := by
  unfold Machine.loadPointStep; split
  · rename_i hr
    exact K.raiseStarved _ (K.advanceAndLoad _ h hr.1)
  · exact h

theorem crossingStep (position : Nat) {s : State} (h : P s) : P (crossingStep position s) := by
  unfold Machine.crossingStep; split
  · rename_i hr
    exact K.advanceTo _ h hr.1
  · exact h

theorem discardedClaim (claim : State → Option ReportBody) {s : State} (h : P s) : P (discardedClaim claim s) := by
  rcases discardedClaim_cases claim s with e | ⟨body, e⟩ <;> rw [e]
  · exact h
  · exact K.postSelf _ h

theorem deadTimeStep (leg : Leg) (gate : Side) {s : State} (h : P s) : P (deadTimeStep leg gate s) := by
  unfold Machine.deadTimeStep; dsimp only; split
  · rename_i hr
    refine K.gates _ _ h hr.1 fun hl other => ?_
    dsimp only
    rw [get_modify]; split
    · exact legSafe_turnOn (hl _)
    · exact hl _
  · exact h

theorem levelStep (input : FilteredInput) {s : State} (h : P s) : P (levelStep input s) := by
  cases input with
  | flt i =>
    unfold Machine.levelStep faultLevelStep acquisitionFault; dsimp only
    have k : P (setFaultFilter i (flipFilter s.trip.faults[i]) s) := K.trip _ _ h rfl rfl rfl rfl id
    repeat' split
    all_goals first
      | exact k | exact h | exact K.withdraw _ (K.postSelf _ k) | exact K.postSelf _ k | exact K.takeCause _ _ _ k
      | exact K.discardedClaim _ k
  | trpn =>
    unfold Machine.levelStep tripLevelStep tripLineRaised; dsimp only
    have k := K.trip s { s.trip with tripLine := flipFilter s.trip.tripLine } h rfl rfl rfl rfl id
    repeat' split
    all_goals first
      | exact h | exact k | exact K.takeCause _ _ _ k | exact K.postSelf _ k
      | (rename_i ht _ _; exact K.addCause _ _ _ k ht.1)

/-! ## Every command, and the tick -/

/-- A property that every elementary update keeps is kept by every command; the four updates of their own are asked of the commands
that make them. -/
theorem exec {c : Instr} {s t : State} (h : P s) (he : Machine.exec c s = .next t)
    (power : ∀ id, c = .powerOn id → P t)
    (join : c = .join ∨ c = .registerWrite 0x03 0x01 →
      ∀ s, P s → s.station = .offline → firstInvalid s.tables s.number = none → P (enterListening s))
    (write : c = .twrite ∨ c = .registerWrite 0x03 0x0C → ∀ s, P s → P (twriteStep s))
    (apply : (∃ start, c = .markAccepted start) → KeptByApply P) : P t := by
  have W : ∀ f : State → State, (∀ u, P u → P (f u)) → whilePowered s f = .next t → P t := by
    intro f hf e
    unfold whilePowered at e; injection e with e; subst e
    split
    · exact hf _ h
    · exact h
  cases c with
  | powerOn id => exact power id rfl
  | rstnLow =>
    have e : Host.Outcome.next _ = Host.Outcome.next t := he
    injection e with e; subst e; exact K.pins _ _ h
  | unknownCommand code =>
    have he : execUnknownCommand code s = .next t := he
    unfold execUnknownCommand at he
    split at he
    · cases he
    · exact W _ (fun _ => K.issue _ (fun _ => K.setResult _ _)) he
  | nop => exact W _ (fun _ => K.issue _ (fun _ => K.setResult _ _)) he
  | join => exact W _ (fun _ => K.issue _ (fun _ => K.joinStep (join (.inl rfl)))) he
  | leave => exact W _ (fun _ => K.issue _ (fun _ => K.leaveStep)) he
  | restart => exact W _ (fun _ => K.issue _ (fun _ hu => K.setResultOpen _ (K.withdraw _ hu))) he
  | propose => exact W _ (fun _ => K.issue _ (fun _ => K.proposeStep)) he
  | hold => exact W _ (fun _ => K.issue _ (fun _ => K.holdStep _)) he
  | release => exact W _ (fun _ => K.issue _ (fun _ => K.holdStep _)) he
  | clear => exact W _ (fun _ => K.issue _ (fun _ => K.clearStep)) he
  | stop => exact W _ (fun _ => K.issue _ (fun _ => K.stopStep)) he
  | push => exact W _ (fun _ => K.issue _ (fun _ => K.pushStep)) he
  | flush => exact W _ (fun _ => K.issue _ (fun _ => K.flushStep)) he
  | tread => exact W _ (fun _ => K.issue _ (fun _ => K.treadStep)) he
  | twrite => exact W _ (fun _ => K.issue _ (write (.inl rfl))) he
  | recallResult => exact W recallStep (fun _ hu => K.host _ _ hu id) he
  | registerWrite address value =>
    refine W _ ?_ he
    intro u hu
    split
    · rename_i ha; subst ha
      exact K.commandStep value (fun e => join (.inr (by rw [e]))) (fun e => write (.inr (by rw [e]))) hu
    · exact K.writeRegister _ _ hu
  | reportRead =>
    refine W readReport (fun u hu => ?_) he
    unfold readReport; split
    · exact K.host _ _ hu fun hl => by simp only [List.length_tail]; omega
    · exact K.host _ _ hu fun hl => by
        dsimp only; split
        · simp only [List.length_tail]; omega
        · exact hl
  | timerReachesL dominant =>
    refine W _ (fun u hu => ?_) he
    unfold timerStep beginMark; dsimp only; repeat' split
    all_goals first | exact hu | exact K.link _ _ (K.link _ _ hu)
  | deferredMarkStart =>
    refine W _ (fun u hu => ?_) he
    unfold deferredStep beginMark; split
    · exact K.link _ _ hu
    · exact hu
  | markDriveEnd =>
    refine W _ (fun u hu => ?_) he
    unfold markEndStep noteLevel; split
    · exact K.link _ _ (K.link _ _ hu)
    · exact hu
  | markAccepted start =>
    refine W _ (fun u hu => ?_) he
    unfold runStep; split
    · exact K.discardedClaim _ hu
    unfold runKind
    cases hs : u.station <;> dsimp only
    · exact absurd hs ‹_›
    · rw [if_neg (by simp [onLink, hs])]; exact K.acquisitionMark _ hu hs
    all_goals
      repeat' split
      all_goals first
        | exact K.linkMark (apply ⟨_, rfl⟩) _ hu (by simp [hs]) | exact K.spoilWindow _ hu | exact hu
        | simp_all [onLink]
  | lineDisturbance window =>
    refine W (fun u => if onLink u then Machine.spoilWindow window u else u) (fun u hu => ?_) he
    split
    · exact K.spoilWindow _ hu
    · exact hu
  | markTimeout =>
    refine W _ (fun u hu => ?_) he
    unfold timeoutStep; repeat' split
    all_goals first | exact hu | exact K.discardedClaim _ hu | exact K.mismatchWithdraw _ _ hu
  | loneStart =>
    refine W _ (fun u hu => ?_) he
    unfold loneStep loneJoined; split
    · rename_i hs
      exact K.raiseTripLine (K.postSelf _ (K.joined _ _ _ hu hs.1))
    · exact hu
  | ownWindowStart =>
    refine W (fun u => if onLink u then Machine.ownWindow u else u) (fun u hu => ?_) he
    split
    · exact K.ownWindow hu
    · exact hu
  | frameReceived window bytes =>
    refine W (fun u => if u.station = .offline then Machine.discardedClaim (frameClaim window bytes) u
      else Machine.completeFrame window bytes u) (fun u hu => ?_) he
    exact Kept.cases (fun _ => K.discardedClaim _ hu) fun _ => K.completeFrame _ _ hu
  | windowEnd window =>
    refine W (fun u => if u.station = .offline then Machine.discardedClaim (windowClaim window) u
      else Machine.endWindow window u) (fun u hu => ?_) he
    exact Kept.cases (fun _ => K.discardedClaim _ hu) fun _ => K.endWindow _ hu
  | loadPoint position => exact W _ (fun _ => K.loadPointStep _) he
  | compareCrossing position => exact W _ (fun _ => K.crossingStep _) he
  | deadTimeElapsed leg gate => exact W _ (fun _ => K.deadTimeStep _ _) he
  | filteredLevelChange input => exact W _ (fun _ => K.levelStep _) he
  | clearSample low => exact W _ (fun _ => K.clearSampleStep _) he
  | receptionError window => exact W _ (fun _ => K.spoilWindow _) he
  | readbackMismatch =>
    refine W (fun u => if onLink u = true ∧ u.link.txBuffer ≠ [] then stopSending u else u) (fun u hu => ?_) he
    split
    · exact K.link _ _ hu
    · exact hu

theorem tickPort {s : State} (h : P s) : P (tickPort s).1 := by
  have set : ∀ p u, P u → P (setPort p u) := fun p u hu => K.host _ _ hu id
  have sample : ∀ u, P u → P (sampleBit u).1 := by
    intro u hu
    unfold sampleBit; dsimp only; split <;> exact set _ _ hu
  have shift : ∀ u, P u → P (shiftOut u) := by
    intro u hu
    have latch : ∀ a, P (latchRegister a u) := fun _ => set _ _ hu
    unfold shiftOut; dsimp only; split
    · exact set _ _ hu
    · exact set _ _ (K.free _ _ hu)
    · refine set _ _ ?_
      split
      · exact latch _
      · exact hu
  unfold Machine.tickPort; dsimp only; repeat' split
  · exact set _ _ h
  · exact set _ _ h
  · exact h
  · exact sample _ (set _ _ h)
  · exact shift _ (set _ _ h)

theorem bitEnd {s : State} (h : P s) : P (bitEnd s).1 := by
  unfold Machine.bitEnd; dsimp only
  split <;> exact K.wires s _ _ h

theorem takeSample {s : State} (h : P s) : P (takeSample s).1 := by
  unfold Machine.takeSample; dsimp only; split
  · exact K.link _ _ h
  · exact h

theorem setPhase (n : Nat) {s : State} (h : P s) : P (setPhase n s) := K.link _ _ h

theorem transition {s : State} (h : P s) : P (transition s).1 := by
  unfold Machine.transition chooseFirst; dsimp only; repeat' split
  · exact K.bitEnd h
  · exact K.bitEnd (K.takeSample (K.setPhase _ (K.free _ _ h)))
  · exact K.setPhase _ (K.free _ _ h)
  · exact K.setPhase _ h

theorem tickLine {s : State} (h : P s) : P (tickLine s).1 := by
  unfold Machine.tickLine; dsimp only
  split
  · exact h
  · refine K.takeSample (K.link _ _ ?_)
    repeat' split
    · exact K.bitEnd h
    · exact K.transition h
    · exact K.setPhase _ h

/-- The tick keeps what every elementary update keeps. -/
theorem tick {s : State} (h : P s) : P (tick s) := by
  have carrier : ∀ u, P u → P (tickCarrier u).1 := by
    intro u hu
    unfold tickCarrier; split
    · exact K.advance _ _ hu ‹_› ‹_›
    · exact hu
  have settle : ∀ u, P u → P (tickSettle u).1 := by
    intro u hu
    unfold tickSettle; split
    · exact K.trip _ _ hu rfl rfl rfl rfl id
    · exact hu
  have order : ∀ g u, P u → P (orderGroups g u).2 := by
    intro g u hu
    unfold orderGroups; dsimp only; split
    · exact hu
    · exact K.free _ _ hu
  have filters : ∀ u, P u → P (tickFilters u).1 := fun u hu => K.trip _ _ hu rfl rfl rfl rfl id
  have begin : P (beginTick s) := K.now _ _ h
  unfold Machine.tick
  split
  · dsimp only
    refine K.pending _ _ (order _ _ (settle _ (filters _ ?_)))
    split
    · exact K.counts _ (K.tickLine (K.tickPort begin))
    · exact carrier _ (K.counts _ (K.tickLine (K.tickPort begin)))
  · exact h

/-- A step with no command keeps what every elementary update keeps. -/
theorem idle {s : State} (h : P s) : P (idle s) := by
  unfold Machine.idle; split
  · exact K.tick h
  · split
    · exact K.takePostponed _ (K.now _ _ h)
    · exact h

end Kept

end Sys2Proof.Machine
end

