-- ==== Sys2Proof/Laws/Ticks.lean ====
section
/-! SUPPORT. What one tick of the clock can do, part by part (R1, R95, R112, R132, R144). -/

namespace Sys2Proof.Machine

/-- What no part of a tick changes but the carrier's and the gates' own. -/
structure TickKeeps (s t : State) : Prop where
  station : t.station = s.station
  number : t.number = s.number
  roster : t.roster = s.roster
  change : t.change = s.change
  setpoint : t.setpoint = s.setpoint
  tables : t.tables = s.tables
  host : t.host = { s.host with port := t.host.port }
  pins : t.pins = s.pins
  first : t.trip.first = s.trip.first
  causes : t.trip.causes = s.trip.causes
  entry : t.trip.entry = s.trip.entry
  drive : t.trip.drive = s.trip.drive
  settling : t.trip.settling = s.trip.settling
  cycle : t.link.cycle = s.link.cycle
  tally : t.link.tally = s.link.tally
  mark : t.link.mark = s.link.mark
  txBuffer : t.link.txBuffer = s.link.txBuffer
  gate : t.gate = s.gate
  carrier : t.carrier = s.carrier
  now : t.now = s.now

theorem TickKeeps.refl (s : State) : TickKeeps s s := by constructor <;> rfl

theorem TickKeeps.trans {s t u : State} (h : TickKeeps s t) (k : TickKeeps t u) : TickKeeps s u := by
  constructor
  case host => rw [k.host, h.host]
  all_goals first
    | exact k.station.trans h.station | exact k.number.trans h.number | exact k.roster.trans h.roster
    | exact k.change.trans h.change | exact k.setpoint.trans h.setpoint | exact k.tables.trans h.tables
    | exact k.pins.trans h.pins | exact k.first.trans h.first | exact k.causes.trans h.causes | exact k.entry.trans h.entry
    | exact k.drive.trans h.drive | exact k.settling.trans h.settling | exact k.cycle.trans h.cycle
    | exact k.tally.trans h.tally | exact k.mark.trans h.mark | exact k.txBuffer.trans h.txBuffer
    | exact k.gate.trans h.gate | exact k.carrier.trans h.carrier | exact k.now.trans h.now

theorem tickPort_keeps (s : State) : TickKeeps s (tickPort s).1 := by
  have sample : ∀ u, TickKeeps u (sampleBit u).1 := by
    intro u; unfold sampleBit; dsimp only; split <;> constructor <;> rfl
  have shift : ∀ u, TickKeeps u (shiftOut u) := by
    intro u; unfold shiftOut; dsimp only; split
    · constructor <;> rfl
    · constructor <;> rfl
    · split <;> constructor <;> rfl
  unfold tickPort; dsimp only; repeat' split
  · constructor <;> rfl
  · constructor <;> rfl
  · exact .refl s
  · exact TickKeeps.trans (by constructor <;> rfl) (sample _)
  · exact TickKeeps.trans (by constructor <;> rfl) (shift _)

theorem bitEnd_keeps (s : State) : TickKeeps s (bitEnd s).1 := by
  unfold bitEnd; dsimp only
  split <;> constructor <;> rfl

theorem takeSample_keeps (s : State) : TickKeeps s (takeSample s).1 := by
  unfold takeSample; dsimp only
  split
  · constructor <;> rfl
  · exact .refl s

theorem noteLevel_keeps (s : State) : TickKeeps s (noteLevel s) := by constructor <;> rfl

theorem setPhase_keeps (n : Nat) (s : State) : TickKeeps s (setPhase n s) := by constructor <;> rfl

theorem transition_keeps (s : State) : TickKeeps s (transition s).1 := by
  have free : ∀ n u, TickKeeps u { u with free := n } := fun n u => by constructor <;> rfl
  unfold transition chooseFirst; dsimp only; repeat' split
  · exact bitEnd_keeps s
  · exact (((free _ s).trans (setPhase_keeps _ _)).trans (takeSample_keeps _)).trans (bitEnd_keeps _)
  · exact (free _ s).trans (setPhase_keeps _ _)
  · exact setPhase_keeps _ s

theorem tickLine_keeps (s : State) : TickKeeps s (tickLine s).1 := by
  unfold tickLine; dsimp only
  split
  · exact .refl s
  · refine TickKeeps.trans ?_ (takeSample_keeps _)
    refine TickKeeps.trans ?_ (noteLevel_keeps _)
    repeat' split
    · exact bitEnd_keeps s
    · exact transition_keeps s
    · exact setPhase_keeps _ s

theorem tickFilters_keeps (s : State) : TickKeeps s (tickFilters s).1 := by constructor <;> rfl

theorem tickSettle_keeps (s : State) : TickKeeps s (tickSettle s).1 := by
  unfold tickSettle; split
  · constructor <;> rfl
  · exact .refl s

theorem orderGroups_keeps (groups : List (List Instr)) (s : State) : TickKeeps s (orderGroups groups s).2 := by
  unfold orderGroups; dsimp only; split
  · exact .refl s
  · constructor <;> rfl

/-! ## The tick in its parts -/

/-- After the port and the line. -/
def tickLinked (s : State) : State := (tickLine (tickPort (beginTick s)).1).1

/-- A mark is accepted in this tick. -/
def tickMarks (s : State) : Bool := (tickLine (tickPort (beginTick s)).1).2.any isMark

/-- After the gates and the carrier, too. -/
def tickMoved (s : State) : State :=
  if tickMarks s then (tickGates (tickLinked s)).1 else (tickCarrier (tickGates (tickLinked s)).1).1

/-- The groups of commands that fall due in a tick, and the turn-ons that come last. -/
def tickGroups (s : State) : List (List Instr) :=
  (tickFilters (tickMoved s)).2 ++ [(tickSettle (tickFilters (tickMoved s)).1).2, (tickPort (beginTick s)).2,
    (tickLine (tickPort (beginTick s)).1).2, if tickMarks s then [] else (tickCarrier (tickGates (tickLinked s)).1).2]

/-- A tick is its parts, one after the other. -/
theorem tick_eq (s : State) (hp : s.pins.rstn = true) :
    tick s = { (orderGroups (tickGroups s) (tickSettle (tickFilters (tickMoved s)).1).1).2 with
      pending := (orderGroups (tickGroups s) (tickSettle (tickFilters (tickMoved s)).1).1).1
        ++ (tickGates (tickLinked s)).2 } := by
  unfold tick; rw [if_pos hp]; dsimp only
  cases h : tickMarks s with
  | true =>
    have h' : (tickLine (tickPort (beginTick s)).1).2.any isMark = true := h
    simp only [h', if_true, tickGroups, tickMoved, h, tickLinked]
  | false =>
    have h' : (tickLine (tickPort (beginTick s)).1).2.any isMark = false := h
    simp only [h', tickGroups, tickMoved, h, tickLinked, Bool.false_eq_true, if_false]

theorem tickLinked_keeps (s : State) : TickKeeps (beginTick s) (tickLinked s) :=
  (tickPort_keeps _).trans (tickLine_keeps _)

/-- What comes after the carrier moves neither it nor the gates. -/
theorem tickMoved_keeps (s : State) (hp : s.pins.rstn = true) : ∃ x, TickKeeps (tickMoved s) x ∧
    tick s = { x with pending := (tick s).pending } := by
  refine ⟨_, ((tickFilters_keeps _).trans (tickSettle_keeps _)).trans (orderGroups_keeps (tickGroups s) _), ?_⟩
  rw [tick_eq s hp]

/-- Putting the groups in order loses no command and makes none. -/
theorem mem_orderGroups (groups : List (List Instr)) (s : State) (c : Instr) :
    c ∈ (orderGroups groups s).1 ↔ ∃ g ∈ groups, c ∈ g := by
  have mi : ∀ (x : List Instr) (l : List (List Instr)) (n : Nat) (y : List Instr), y ∈ insertAt x l n ↔ y = x ∨ y ∈ l := by
    intro x l n
    fun_induction insertAt x l n <;> simp_all
    intros; tauto
  have ma : ∀ (l : List (List Instr)) (n : Nat) (y : List Instr), y ∈ arrange l n ↔ y ∈ l := by
    intro l n
    fun_induction arrange l n <;> simp_all
  have md : c ∈ (groups.filter fun g => !g.isEmpty).flatten ↔ ∃ g ∈ groups, c ∈ g := by
    simp only [List.mem_flatten, List.mem_filter]
    constructor
    · rintro ⟨g, ⟨h, -⟩, k⟩; exact ⟨g, h, k⟩
    · rintro ⟨g, h, k⟩
      refine ⟨g, ⟨h, ?_⟩, k⟩
      cases g <;> simp_all
  unfold orderGroups; dsimp only; split
  · exact md
  · rw [← md, List.mem_flatten, List.mem_flatten]
    simp only [ma]

/-- A command falls due in a tick exactly where one of its parts brings it. -/
theorem mem_tick (s : State) (hp : s.pins.rstn = true) (c : Instr) :
    c ∈ (tick s).pending ↔ (∃ g ∈ tickGroups s, c ∈ g) ∨ c ∈ (tickGates (tickLinked s)).2 := by
  rw [tick_eq s hp]
  simp only [List.mem_append, mem_orderGroups]

end Sys2Proof.Machine
end

