-- ==== Sys2Proof/Laws/Windows.lean ====
section
/-! SUPPORT. What a frame can do to the station that receives it, and what the receiver makes of the bits of one byte (R3, R20,
R27, R28, R33, R41). -/

namespace Sys2Proof.Machine

/-! ## Frames -/

/-- The four fields of byte 0 of a frame (R20). -/
theorem byte0_fields (f : Frame) :
    (frameByte0 f).extractLsb' 0 4 = stationField f.sender ∧ (frameByte0 f).extractLsb' 4 2 = advCode f.state ∧
      (frameByte0 f).getLsbD 6 = isProposal f.part ∧ (frameByte0 f).getLsbD 7 = isVote f.part := by
  obtain ⟨k, st, _, _, _, _, _, _, part⟩ := f
  unfold frameByte0; dsimp only
  generalize isProposal part = p; generalize isVote part = v
  revert k; cases st <;> cases p <;> cases v <;> decide

/-- A frame that a check takes as valid is the window owner's, with the station's link code (R27). -/
theorem checkFrame_sender {l : LinkTable} {k : StationNo} {bytes : List Byte} {f : Frame}
    (h : checkFrame l k bytes = .valid f) : f.sender = k ∧ f.linkCode = l.linkCode := by
  unfold checkFrame at h
  split at h
  · cases h
  · split at h
    · cases h
    · split at h
      · rename_i h1 h2; injection h with h; subst h; simp at h1; exact ⟨h1.1.2, h2⟩
      · cases h

theorem setBelow_zero (c : StationCount) : setBelow c 0 = true := by rw [setBelow_iff]; simp

theorem setBelow_or {c : StationCount} {a b : StationSet} (h : setBelow c a = true) (k : setBelow c b = true) :
    setBelow c (a ||| b) = true := by
  rw [setBelow_iff] at *; intro j hj; simp at hj
  rcases hj with hj | hj
  · exact h j hj
  · exact k j hj

theorem setBelow_of_members {c : StationCount} {a b : StationSet} (h : setBelow c a = true)
    (k : ∀ j, member j b = true → member j a = true) : setBelow c b = true := by
  rw [setBelow_iff] at *; intro j hj; exact h j (k j hj)

/-- The sets of a well-formed frame name stations below S (R27). -/
theorem sets_of_wellFormed {c : StationCount} {f : Frame} (h : malformed c f = false) :
    setBelow c f.set = true ∧
      ∀ p, f.part = .proposal p → setBelow c p.newSet = true ∧ setBelow c p.electorate = true := by
  unfold malformed at h; simp only [Bool.or_eq_false_iff] at h
  refine ⟨by simpa using h.1.2, ?_⟩
  intro p hp; have := h.2; rw [hp] at this; simp at this; exact ⟨this.1.2, this.2⟩

/-- One entry of sixteen after a write of one. -/
theorem getElem_set_station {α : Type} (v : Vector α 16) (k j : Fin 16) (x : α) :
    (v.set k.val x)[j] = if j = k then x else v[j] := by
  simp only [Fin.getElem_fin, Vector.getElem_set]
  by_cases h : j = k
  · simp [h]
  · simp [h, show ¬k.val = j.val from fun q => h (Fin.ext q.symm)]

/-! ## The hand-over of a frame (R28) -/

/-- A frame at the Roster (R33): the sender's entry, and a report where it was not PRESENT. -/
theorem hearFrame_spec (k : StationNo) (f : Frame) (s : State) : ∃ l, l.length ≤ 1 ∧
    hearFrame k f s = { s with
      roster := { s.roster with entries := s.roster.entries.set k.val (entryFrom f) }
      host := { s.host with reports := postAll l s.host.reports } } ∧
    (isPresent (entryOf s k) = true → l = []) := by
  unfold hearFrame; dsimp only; split
  · exact ⟨[], by simp, rfl, fun _ => rfl⟩
  · exact ⟨[_], by simp, rfl, fun h => by contradiction⟩

/-- The mismatch judgement keeps what Steady names, but for the mismatch flag (R41, R42). -/
theorem steady_judgeMismatch (f : Frame) (s : State) :
    Steady { s with roster := { s.roster with mismatch := (judgeMismatch f s).roster.mismatch } } (judgeMismatch f s) := by
  unfold judgeMismatch; split
  · exact .refl s
  · split
    · exact .refl s
    · rename_i kind h1 h2
      have h := steady_raiseCause .mismatch f.sender (some kind) { s with roster := { s.roster with mismatch := true } }
      have e : (raiseCause .mismatch f.sender (some kind)
          { s with roster := { s.roster with mismatch := true } }).roster.mismatch = true := h.mismatch
      rw [e]; exact h

/-- The Change Unit's part of a hand-over (R28, R29): none for another group. -/
theorem takeContent_keeps (f : Frame) (s : State) :
    (takeContent f s).link = s.link ∧ (takeContent f s).tables = s.tables ∧ (takeContent f s).number = s.number ∧
      (takeContent f s).acq = s.acq ∧ (takeContent f s).roster.entries = s.roster.entries ∧
      (takeContent f s).roster.mismatch = s.roster.mismatch ∧
      (f.group ≠ s.tables.link.group → takeContent f s = s) := by
  have part : ∀ u : State, Steady u (if inGroup u then
      match f.part with
      | .base => u
      | .proposal p => takeProposal f p u
      | .vote v => takeVote f v u
    else u) := by
    intro u; split
    · split
      · exact .refl u
      · exact steady_takeProposal ..
      · exact steady_takeVote ..
    · exact .refl u
  unfold takeContent; dsimp only; split
  · rename_i hg
    have q := part (if f.state = .running then
        { s with change := { s.change with collection := s.change.collection ++ [(f.set, f.profile)] } }
      else s)
    refine ⟨?_, ?_, ?_, ?_, ?_, ?_, fun h => absurd hg h⟩
    · exact q.link.trans (by split <;> rfl)
    · exact q.tables.trans (by split <;> rfl)
    · exact q.number.trans (by split <;> rfl)
    · exact q.acq.trans (by split <;> rfl)
    · exact q.entries.trans (by split <;> rfl)
    · exact q.mismatch.trans (by split <;> rfl)
  · exact ⟨rfl, rfl, rfl, rfl, rfl, rfl, fun _ => rfl⟩

/-- The Change Unit's part of a hand-over comes at once, or waits behind the cause of stage 2 (R28). -/
theorem handOver_eq (k : StationNo) (f : Frame) (s : State) :
    let judged := judgeMismatch f (judgeEntry k (entryOf s k) (hearFrame k f s))
    handOver k f s = takeContent f judged ∧ judged.now.waiting = s.now.waiting ∨
      handOver k f s = postpone (.content f) judged ∧ judged.now.waiting ≠ s.now.waiting := by
  unfold handOver; dsimp only; split
  · rename_i h; exact .inl ⟨rfl, h⟩
  · rename_i h; exact .inr ⟨rfl, h⟩

/-- A hand-over (R28): the sender's entry takes the frame, no other entry changes, and the link, the tables, the number and the
acquisition stand. -/
theorem handOver_keeps (k : StationNo) (f : Frame) (s : State) :
    (handOver k f s).roster.entries = s.roster.entries.set k.val (entryFrom f) ∧ (handOver k f s).link = s.link ∧
      (handOver k f s).tables = s.tables ∧ (handOver k f s).number = s.number ∧ (handOver k f s).acq = s.acq ∧
      (f.group ≠ s.tables.link.group → (handOver k f s).change.collection = s.change.collection) := by
  obtain ⟨l, -, hh, -⟩ := hearFrame_spec k f s
  generalize hu : hearFrame k f s = u at hh
  have j := steady_judgeEntry k (entryOf s k) u
  generalize hv : judgeEntry k (entryOf s k) u = v at j
  have m := steady_judgeMismatch f v
  generalize hw : judgeMismatch f v = w at m
  obtain ⟨t1, t2, t3, t4, t5, t6, t7⟩ := takeContent_keeps f w
  have e := handOver_eq k f s
  dsimp only at e
  rw [hu, hv, hw] at e
  have vt : v.tables = s.tables := j.tables.trans (by rw [hh])
  have mt : w.tables = v.tables := m.tables
  have entries : w.roster.entries = s.roster.entries.set k.val (entryFrom f) := by
    rw [m.entries]; exact j.entries.trans (by rw [hh])
  have link : w.link = s.link := m.link.trans (j.link.trans (by rw [hh]))
  have number : w.number = s.number := m.number.trans (j.number.trans (by rw [hh]))
  have acq : w.acq = s.acq := m.acq.trans (j.acq.trans (by rw [hh]))
  have collection : w.change.collection = s.change.collection := m.collection.trans (j.collection.trans (by rw [hh]))
  rcases e with ⟨e, -⟩ | ⟨e, -⟩
  · rw [e]
    refine ⟨t5.trans entries, t1.trans link, t2.trans (mt.trans vt), t3.trans number, t4.trans acq, fun hg => ?_⟩
    rw [t7 (by rw [mt, vt]; exact hg)]; exact collection
  · rw [e]; exact ⟨entries, link, mt.trans vt, number, acq, fun _ => collection⟩

/-! ## The receiver and the bits of one byte (R3) -/

/-- The byte that a byte's own bits make. -/
theorem byteOf_own_bits (b : Byte) :
    byteOf [!b.getLsbD 0, !b.getLsbD 1, !b.getLsbD 2, !b.getLsbD 3, !b.getLsbD 4, !b.getLsbD 5, !b.getLsbD 6,
      !b.getLsbD 7] = b := by
  revert b; decide +kernel

/-- The data bits and the stop bit of one byte. -/
theorem receiveBits_data (b : Byte) (rest : List Bool) (previous : Bool) (offset : Nat) (bytes : List Byte) (last : RxEvent) :
    receiveBits ((byteBits b).tail ++ rest) previous offset (.data []) bytes last =
      receiveBits rest false (offset + 9) (byteDone (bytes ++ [b])).1 (bytes ++ [b])
        (if (byteDone (bytes ++ [b])).2 = .nothing then last else (byteDone (bytes ++ [b])).2) := by
  unfold byteBits
  have e := byteOf_own_bits b
  simp only [BitVec.getLsbD_eq_getElem (show 0 < 8 by omega), BitVec.getLsbD_eq_getElem (show 1 < 8 by omega),
    BitVec.getLsbD_eq_getElem (show 2 < 8 by omega), BitVec.getLsbD_eq_getElem (show 3 < 8 by omega),
    BitVec.getLsbD_eq_getElem (show 4 < 8 by omega), BitVec.getLsbD_eq_getElem (show 5 < 8 by omega),
    BitVec.getLsbD_eq_getElem (show 6 < 8 by omega), BitVec.getLsbD_eq_getElem (show 7 < 8 by omega)] at e
  simp [receiveBits, rxAfter, e]

/-- A further byte directly after the one before it. -/
theorem receiveBits_next (b : Byte) (rest : List Bool) (previous : Bool) (offset : Nat) (bytes : List Byte) (last : RxEvent) :
    receiveBits (byteBits b ++ rest) previous offset (.gap 0) bytes last =
      receiveBits rest false (offset + 10) (byteDone (bytes ++ [b])).1 (bytes ++ [b])
        (if (byteDone (bytes ++ [b])).2 = .nothing then last else (byteDone (bytes ++ [b])).2) := by
  have : byteBits b ++ rest = true :: ((byteBits b).tail ++ rest) := rfl
  rw [this, receiveBits]; simp [rxAfter]; exact receiveBits_data ..

/-- The first byte, whose start bit stands at window offset 8. -/
theorem receiveBits_first (b : Byte) (rest : List Bool) :
    receiveBits (byteBits b ++ rest) false 8 .hunt [] .nothing =
      receiveBits rest false 18 (byteDone [b]).1 [b] (byteDone [b]).2 := by
  have : byteBits b ++ rest = true :: ((byteBits b).tail ++ rest) := rfl
  rw [this, receiveBits]; simp [rxAfter]
  refine (receiveBits_data b rest true 9 [] .nothing).trans ?_
  simp
  cases (byteDone [b]).2 <;> simp

end Sys2Proof.Machine
end

