-- ==== Sys2Proof/Tests/Slice0.lean ====
section
/-! SUPPORT. Tests: the refusal of ill-formed terms, one-step tests whose expected results are the worked examples of spec/, and for
every obligation with hypotheses the states that meet them. -/

namespace Sys2Proof.Tests

open Sys2Proof.Machine

-- One theorem after the other: evaluated all at once, they take more memory than a check allows.
set_option Elab.async false

/-! ## States -/

/-- The outcome is a next state with a property. -/
def yields (o : Out) (p : State → Bool) : Bool :=
  match o with
  | .next t => p t
  | .fault _ | .refused _ => false

/-- The link table of the examples: D = 4, S = 8, L = 1600, link code 90 (05, Example: a station joins a running link). -/
def linkTable : LinkTable :=
  { LinkTable.default with cycleLength := 1600, linkCode := 90, starveLimit := 3, faultFilter := 5, valid := true }

/-- Profile 2 of the examples: N = 2, TRIANGLE, VALLEY, QUEUE, dead time 40 (06 and 07, examples). -/
def profile2 : Profile :=
  { Profile.default with
    configured := true, ratio := .n2, deadTime := 40, enables := { a := true, b := true, c := true } }

/-- Profile 3: N = 4 (08, Example: switching profile with queued records). -/
def profile3 : Profile := { profile2 with ratio := .n4 }

/-- Profile 5: a pattern of three entries from 10 on (08, the table of R126). -/
def profile5 : Profile := { profile2 with source := .pattern, patternStart := 10, patternLength := 3 }

/-- The tables of the examples. -/
def tables (frozen : Bool) : Tables :=
  { Tables.default with
    link := linkTable
    profiles := #v[Profile.parked, Profile.default, profile2, profile3, Profile.default, profile5, Profile.default,
      Profile.default]
    frozen := frozen }

/-- Station 6, configured and OFFLINE. -/
def offlineState : State := { State.reset with number := 6, tables := tables false }

/-- Station 6 in LISTENING. -/
def listeningState (phase : AcqPhase) (failed listening : Nat) (taken : Option CycleNo) : State :=
  { offlineState with
    station := .listening, tables := tables true
    acq := { phase := phase, elapsed := 0, failedLocks := failed, listening := listening, taken := taken } }

/-- A PRESENT entry of group 0. -/
def peer (state : AdvState) (set : StationSet) (profile : ProfileNo) : RosterEntry :=
  { RosterEntry.unseen with presence := .present, state := some state, set := set, profile := profile, lastHeard := 2039 }

/-- Stations 1 and 4 PRESENT with a state and a pair. -/
def peers (state : AdvState) (set : StationSet) (profile : ProfileNo) : Roster :=
  { Roster.empty with
    entries := (Roster.empty.entries.set 1 (peer state set profile)).set 4 (peer state set profile) }

/-- Station 6 in JOINED, in cycle 2040, its view refreshed to 1 and 4 with profile 2 (02, Example: frames of one admission). -/
def joinedState : State :=
  { offlineState with
    station := .joined, tables := tables true, roster := peers .running 0x12 2
    link := { Link.rest 2040 with timer := 700 }
    change := { ChangeUnit.empty 3 with view := 0x12, profile := 2 } }

/-- Station 6 in RUNNING with 1 and 4 under profile 2, offset 2133 (06, Example: offsets of a group of three). -/
def runningState : State :=
  { offlineState with
    station := .running, tables := tables true, roster := peers .running 0x52 2
    link := { Link.rest 2040 with timer := 700 }
    change := { ChangeUnit.empty 3 with view := 0x52, profile := 2 }
    gate := { Gate.off with deadTime := 40 }
    carrier := { running := true, period := 3200, shape := some .triangle, loadSetting := some .valley, offset := 2133,
                 position := 2133, setThisTick := false, rerun := 0 } }

/-- The running state under profile 5, a PATTERN profile. -/
def patternState (position : Nat) (ended : Bool) : State :=
  { runningState with
    change := { runningState.change with profile := 5 }
    setpoint := { SetpointUnit.empty with position := position, ended := ended } }

/-- Station 6 in TRIPPED on FAULT2, driving the line, the fault gone. -/
def trippedState : State :=
  { offlineState with
    station := .tripped, tables := tables true, roster := peers .running 0x12 2
    link := { Link.rest 2040 with timer := 700 }
    trip := { TripUnit.empty with first := some (.fault 2), causes := 0x004, entry := 2038, drive := true } }

/-- A state with the filter of a fault input given. -/
def withFilter (i : Fin 4) (f : Filter) (s : State) : State :=
  { s with trip := { s.trip with faults := s.trip.faults.set i.val f } }

/-- A state with one fault input's filtered level asserted. -/
def withFault (i : Fin 4) (s : State) : State := withFilter i { asserted := true, run := 0 } s

/-- A filtered level that is deasserted, with the run that a fault filter of 5 asks for: 21 ticks (R132). -/
def ripe : Filter := { asserted := false, run := 21 }

/-- A state with another CAUSE row. -/
def withRow (c : Cause) (action : Action) (s : State) : State :=
  { s with tables := { s.tables with causes := s.tables.causes.set (causeIndex c).val ⟨action, false⟩ } }

/-- A state with another slot. -/
def withSlot (c : Slot) (s : State) : State := { s with change := { s.change with slot := c } }

/-- Station 1's change of the admission example: base the pair of 1 and 4, new set with 6, E = 2044. -/
def remoteSlot (state : SlotState) : Slot :=
  { Slot.vacant with
    state := state, remote := true, proposer := 1, sequence := some 3, newSet := 0x52, newProfile := 2,
    baseSet := 0x12, baseProfile := 2, electorate := 0x52, effective := 2044, accepts := 0x40, verdict := some .accept,
    firstSeen := 2040 }

/-- A change of station 6's own. -/
def localSlot (state : SlotState) (automatic : Bool) : Slot :=
  { remoteSlot state with remote := false, automatic := automatic, proposer := 6, accepts := 0, verdict := none }

/-- A state with table select, index and staging registers. -/
def staged (select index : Byte) (bytes : Vector Byte 8) (s : State) : State :=
  { s with host := { s.host with tsel := select, tidx := index, tdata := bytes } }

/-- A state with argument registers. -/
def withArgs (args : Vector Byte 8) (s : State) : State := { s with host := { s.host with args := args } }

/-- A frame of station 1 in cycle 2040, RUNNING under profile 2. -/
def frame1 (set : StationSet) (part : FramePart) : Frame :=
  { sender := 1, state := .running, linkCode := 90, cycle := 2040, group := 0, profile := 2, tripClass := 0, set := set,
    part := part }

/-- The proposal of the admission example. -/
def proposal1 : Proposal :=
  { sequence := 3, newProfile := 2, newSet := 0x52, electorate := 0x52, effective := 2044 }

/-- The frame of station 1 that shows it TRIPPED on a fault. -/
def trippedFrame : Frame := { frame1 0 .base with state := .tripped, profile := 0, tripClass := 1 }

/-- A record of profile 2 with leg A in SWITCH at compare value 1000. -/
def record (tag : ProfileNo) : Setpoint :=
  { tag := tag, legs := { a := { mode := .switch, compare := 1000 }, b := LegSetting.off, c := LegSetting.off } }

/-! ## Ill-formed terms -/

theorem test_unknown_command_below_codes_is_ill_formed : (Instr.unknownCommand 0x0D).wellFormed = false := by decide

theorem test_unknown_command_from_codes_is_well_formed : (Instr.unknownCommand 0x0E).wellFormed = true := by decide

theorem test_mark_beyond_timer_is_ill_formed : (Instr.markAccepted 16383).wellFormed = false := by decide

theorem test_mark_at_timer_end_is_well_formed : (Instr.markAccepted 16382).wellFormed = true := by decide

theorem test_empty_frame_is_ill_formed : (Instr.frameReceived 1 []).wellFormed = false := by decide

theorem test_long_frame_is_ill_formed : (Instr.frameReceived 1 (List.replicate 17 0)).wellFormed = false := by decide

theorem test_crossing_beyond_period_is_ill_formed : (Instr.compareCrossing 131056).wellFormed = false := by decide

theorem test_ill_formed_unknown_command_faults :
    exec (.unknownCommand 0x0D) offlineState = .fault (.notACommand 0x0D) := by rfl

/-! ## Words and bytes -/

/-- 02, R21: the check of the nine characters "1" to "9". -/
theorem test_crc_check_value : crc [49, 50, 51, 52, 53, 54, 55, 56, 57] = 0x29B1#16 := by decide +kernel

/-- 11, R162: the code of PUSH, and the first and last codes of no command. -/
theorem test_command_codes :
    commandOf 0x09 = .push ∧ commandOf 0x0D = .recallResult ∧ commandOf 0x0E = .unknownCommand 0x0E ∧
      commandOf 0xFF = .unknownCommand 0xFF := by decide

/-- 11, R160, R162: the bytes 03 and 01 are a write of JOIN to COMMAND, and the address goes on to ARG0. -/
theorem test_transfer_issues_command :
    endByte .command 0x03 = (.write 0x03 0, []) ∧ endByte (.write 0x03 0) 0x01 = (.write 0x04 0, [.join]) := by decide

/-- 11, R160, R170: the byte 96 begins a read of REPORT, whose eighth byte completes it, and REPORT follows again. -/
theorem test_transfer_reads_reports :
    endByte .command 0x96 = (.read 0x16 0, []) ∧ endByte (.read 0x16 6) 0 = (.read 0x16 7, []) ∧
      endByte (.read 0x16 7) 0 = (.read 0x16 0, [.reportRead]) := by decide

/-- 10, Example: a JOIN refused twice: the LINK write of the example, with L = 1601. -/
theorem test_link_example_is_written :
    yields (exec .twrite (staged 0 0 #v[0x10, 0x41, 0x06, 0x24, 90, 0x00, 0x35, 0x01] State.reset)) (fun t =>
      t.host.result == .done && t.tables.link.valid && t.tables.link.cycleLength == 1601 && t.tables.link.lead == 4 &&
        t.tables.link.missLimit == 2 && t.tables.link.linkCode == 90) = true := by decide +kernel

/-! ## Host commands -/

/-- 10, R153: ID0 and ID3 high give the number 1 + 8. -/
theorem test_power_on_samples_number :
    yields (exec (.powerOn ⟨true, false, false, true⟩) joinedState) (fun t =>
      t.number == 9 && t.station == .offline && t.link.cycle == 0) = true := by decide +kernel

theorem test_nop_is_done :
    yields (exec .nop joinedState) (fun t => t.host.result == .done && t.host.detail == 0) = true := by decide +kernel

/-- 05, Example: a station joins a running link: LISTENING, SEEK, the tables frozen. -/
theorem test_join_enters_listening :
    yields (exec .join offlineState) (fun t =>
      t.station == .listening && t.acq.phase == .seek && t.tables.frozen && t.host.result == .done) = true := by decide +kernel

/-- 10, Example: a JOIN refused twice: with L = 1601 and N = 4 the period is odd, detail 64 + 3. -/
theorem test_join_refuses_odd_period :
    yields (exec .join { offlineState with
      tables := { offlineState.tables with link := { linkTable with cycleLength := 1601 } } }) (fun t =>
        t.station == .offline && t.host.result == .refusedInvalid && t.host.detail == 67) = true := by decide +kernel

/-- 05, R86: BUSY in JOINED inside the electorate of the change in the slot. -/
theorem test_leave_of_an_elector_is_busy :
    yields (exec .leave (withSlot (remoteSlot .opened) joinedState)) (fun t =>
      t.station == .joined && t.host.result == .busy) = true := by decide +kernel

/-- 05, R92: from JOINED the last report is LEFT_LINK. -/
theorem test_restart_reports_left_link :
    yields (exec .restart joinedState) (fun t => t.station == .offline && t.host.reports ==
      [{ body := .leftLink .restart .joined, gap := false, cycle := 2040, subject := 6 }]) = true := by decide +kernel

/-- 04, Example: two proposals in one cycle: the electorate of a PROPOSE of 1, 4 and 6. -/
theorem test_propose_pends :
    yields (exec .propose (withArgs #v[0x52, 0, 2, 0, 0, 0, 0, 0] joinedState)) (fun t =>
      t.host.result == .done && t.change.slot.state == .pending && t.change.slot.electorate == 0x52) = true := by decide +kernel

/-- 11, R164: with S = 8 a station number of 8 is refused with that number. -/
theorem test_propose_refuses_number_beyond_count :
    yields (exec .propose (withArgs #v[0x12, 1, 2, 0, 0, 0, 0, 0] joinedState)) (fun t =>
      t.host.result == .refusedMember && t.host.detail == 8) = true := by decide +kernel

theorem test_hold_shows_flag_before :
    yields (exec .hold joinedState) (fun t => t.change.hold && t.host.detail == 0) = true := by decide +kernel

theorem test_release_shows_flag_before :
    yields (exec .release { joinedState with change := { joinedState.change with hold := true } }) (fun t =>
      !t.change.hold && t.host.detail == 1) = true := by decide +kernel

/-- 09, R143, R144: the fault is gone, so the line is released and RESULT shows BUSY. -/
theorem test_clear_releases_line :
    yields (exec .clear trippedState) (fun t => !trpnDriven t && t.trip.settling && t.host.result == .busy) = true := by
  decide +kernel

/-- 09, R143: FAULT2 still asserted. -/
theorem test_clear_refuses_standing_fault :
    yields (exec .clear (withFault 2 trippedState)) (fun t =>
      trpnDriven t && t.host.result == .refusedActive && t.host.detail == 2) = true := by decide +kernel

/-- 09, R142: a STOP at a RUNNING station, class 6 in its next frame. -/
theorem test_stop_trips :
    yields (exec .stop runningState) (fun t =>
      t.station == .tripped && (ownFrame t).tripClass == 6 && t.gate == Gate.off && t.change.view == 0) = true := by decide +kernel

theorem test_stop_in_tripped_adds_host :
    yields (exec .stop trippedState) (fun t => t.trip.causes == 0x104 && t.host.detail == 1) = true := by decide +kernel

/-- 08, R120: with H = 1600 a compare value of 1600 passes. -/
theorem test_push_at_top_of_range :
    yields (exec .push (withArgs #v[0x01, 0x20, 0x40, 0x06, 0, 0, 0, 0] joinedState)) (fun t =>
      t.host.result == .done && t.host.detail == 1 && t.setpoint.queue.map (·.legs.a.compare) == [1600]) = true := by decide +kernel

/-- 08, R120: 1601 on leg C is refused with detail 2, though the leg is OFF. -/
theorem test_push_beyond_range :
    yields (exec .push (withArgs #v[0x01, 0x20, 0x40, 0x06, 0, 0, 0x41, 0x06] joinedState)) (fun t =>
      t.host.result == .refusedRange && t.host.detail == 2) = true := by decide +kernel

theorem test_flush_counts_records :
    yields (exec .flush { joinedState with setpoint := { SetpointUnit.empty with queue := [record 2, record 3] } }) (fun t =>
      t.setpoint.queue.isEmpty && t.host.detail == 2) = true := by decide +kernel

/-- 10, R166: L = 1600 in bytes 1 and 2, the link code in byte 4. -/
theorem test_tread_of_link_reads_back :
    yields (exec .tread (staged 0 0 (Vector.replicate 8 0) joinedState)) (fun t =>
      t.host.result == .done && t.host.tdata[1] == 0x40 && t.host.tdata[2] == 0x06 && t.host.tdata[4] == 90) = true := by
  decide +kernel

/-- 10, R155, 11, R166: profile 5 of the examples: configured, N = 2, pattern; dead time 40; legs A to C; entries 10 to 12. -/
theorem test_tread_of_profile_reads_back :
    yields (exec .tread (staged 1 5 (Vector.replicate 8 0) joinedState)) (fun t =>
      t.host.tdata == #v[0x93, 40, 0x07, 10, 3, 0, 0, 0]) = true := by decide +kernel

/-- 10, R152: S = 16 with L = 2000 is refused at field 3. -/
theorem test_twrite_refuses_short_cycle :
    yields (exec .twrite (staged 0 0 #v[0x04, 0xD0, 0x07, 0x24, 0, 0, 0, 0] State.reset)) (fun t =>
      t.host.result == .refusedRange && t.host.detail == 3) = true := by decide +kernel

/-- 11, R165: ARG0 to ARG2 take the result, the detail and the last command. -/
theorem test_recall_copies_result :
    yields (exec .recallResult { joinedState with host := { joinedState.host with
      result := .refusedFull, detail := 4, lastCommand := 9 } }) (fun t =>
        t.host.args[0] == 5 && t.host.args[1] == 4 && t.host.args[2] == 9 && t.host.lastCommand == 9) = true := by decide +kernel

theorem test_unknown_command_is_refused :
    yields (exec (.unknownCommand 0x5A) joinedState) (fun t =>
      t.host.result == .refusedUnknown && t.host.detail == 0x5A && t.host.lastCommand == 0x5A) = true := by decide +kernel

theorem test_register_write_of_command_issues_it :
    yields (exec (.registerWrite 0x03 0x05) joinedState) (fun t => t.change.hold && t.host.lastCommand == 5) = true := by
  decide +kernel

/-- 11, R170: an empty queue reads eight bytes of 0. -/
theorem test_report_read_pops :
    yields (exec .reportRead { joinedState with host := { joinedState.host with
      reports := [{ body := .linkAlone, gap := true, cycle := 0x0102, subject := 6 }] } }) (fun t =>
        t.host.reports.isEmpty && t.host.latch == #v[2, 1, 0x02, 0x01, 6, 0, 0, 0]) = true := by decide +kernel

/-! ## Marks and windows -/

/-- 01, Example: one cycle of an eight-station link: at timer 1600 on a dominant line the mark is deferred. -/
theorem test_timer_end_on_dominant_line_defers :
    yields (exec (.timerReachesL true) joinedState) (fun t => t.link.mark == .deferred && !ltxDominant t) = true := by
  decide +kernel

/-- 01, R6: the timer is not stopped at L; R1: a bit time cut short after its sample counts, so the deferral finds the timer past L. -/
theorem test_deferral_keeps_a_timer_past_its_end :
    yields (exec (.timerReachesL true) { joinedState with link := { joinedState.link with
      timer := cycleLength joinedState + 1 } }) (fun t =>
        t.link.mark == .deferred && t.link.timer == cycleLength joinedState + 1) = true := by decide +kernel

theorem test_deferred_mark_starts :
    yields (exec .deferredMarkStart { joinedState with link := { joinedState.link with mark := .deferred } }) (fun t =>
      t.link.mark == .driving && ltxDominant t) = true := by decide +kernel

theorem test_mark_drive_ends :
    yields (exec .markDriveEnd { joinedState with link := { joinedState.link with mark := .driving } }) (fun t =>
      t.link.mark == .quiet && !ltxDominant t) = true := by decide +kernel

/-- 01, R1: another station that drives from the tick after the own mark on makes a transition, which starts a new bit time. -/
theorem test_transition_after_own_mark :
    let s := { joinedState with link := { joinedState.link with
      mark := .driving, bits := { joinedState.link.bits with level := true, driven := 12 } } }
    yields (exec .markDriveEnd s) (fun t =>
      (tickLine { t with pins := { t.pins with lineOthers := true } }).1.link.bits.phase == 0) = true := by decide +kernel

/-- 01, Example: a cycle-number slip: 812 with a tally of two 814 gives 815 and closes the slot. -/
theorem test_mark_slips_cycle_number :
    yields (exec (.markAccepted 1600) { (withSlot { remoteSlot .opened with effective := 815 } joinedState) with
      link := { joinedState.link with cycle := 812, tally := [814, 814] } }) (fun t =>
        t.link.cycle == 815 && t.change.slot.state == .vacant && t.link.timer == 12) = true := by decide +kernel

/-- 06, Example: re-spacing at an admission: station 6 starts at 2133 with P = 3200. -/
theorem test_mark_applies_admission :
    yields (exec (.markAccepted 1600) { (withSlot (remoteSlot .agreed) joinedState) with
      link := { joinedState.link with cycle := 2043 } }) (fun t =>
        t.station == .running && t.change.view == 0x52 && t.carrier.offset == 2133 && t.carrier.position == 2133 &&
          t.carrier.period == 3200) = true := by decide +kernel

/-- A state with another cycle timer. -/
def atTimer (timer : Nat) (s : State) : State := { s with link := { s.link with timer := timer } }

/-- 01, R5: window 6 lasts from 1072 to 1247. -/
theorem test_disturbance_spoils_own_window :
    yields (exec (.lineDisturbance 6) (atTimer 1247 joinedState)) (fun t => t.link.rx == .spoiled && t.link.readbackBad) =
      true := by decide +kernel

/-- 01, R8: a run of window 6 that reaches its twelfth bit time in window 7 spoils nothing there. -/
theorem test_disturbance_of_ended_window_spoils_nothing :
    yields (exec (.lineDisturbance 6) (atTimer 1248 joinedState)) (fun t => t.link.rx == .waiting && !t.link.readbackBad) =
      true := by decide +kernel

theorem test_mark_timeout_withdraws :
    yields (exec .markTimeout joinedState) (fun t => t.station == .offline && t.host.reports.map (·.body) ==
      [.linkMismatch .markTimeout 0 .joined, .leftLink .linkMismatch .joined]) = true := by decide +kernel

/-- 05, R84: the lone expiry. -/
theorem test_lone_start_joins :
    yields (exec .loneStart (listeningState .seek 0 0 none)) (fun t =>
      t.station == .joined && t.link.cycle == 0 && t.link.timer == 0 && t.host.reports.map (·.body) == [.linkAlone]) = true := by
  decide +kernel

/-- 02, Example: frames of one admission: station 6 votes with 11 bytes. -/
theorem test_own_window_sends_vote :
    yields (exec .ownWindowStart (withSlot (remoteSlot .opened) joinedState)) (fun t =>
      t.link.txBuffer.length == 11 &&
        (ownFrame t).part == .vote { proposer := 1, sequence := 3, verdict := .accept }) = true := by decide +kernel

/-- 02, Example: frames of one admission: station 6 adopts the proposal of station 1 with ACCEPT. -/
theorem test_frame_brings_proposal :
    yields (exec (.frameReceived 1 (encodeFrame (frame1 0x12 (.proposal proposal1)))) joinedState) (fun t =>
      t.change.slot == remoteSlot .opened && t.link.tally == [2040]) = true := by decide +kernel

/-- 02, Example: three frames refused: RUNNING with the set of 3 and profile 0. -/
theorem test_frame_with_unpaired_profile_is_refused :
    yields (exec (.frameReceived 3 (encodeFrame { frame1 0x08 .base with sender := 3, profile := 0 })) joinedState) (fun t =>
      t.link.rx == .spoiled && t.link.tally.isEmpty && t.roster == joinedState.roster) = true := by decide +kernel

/-- 03, R34: with M = 2 the second miss makes the entry ABSENT. -/
theorem test_second_miss_makes_absent :
    yields (exec (.windowEnd 4) { joinedState with roster := { joinedState.roster with
      entries := joinedState.roster.entries.set 4 { peer .running 0x12 2 with misses := 1 } } }) (fun t =>
        t.roster.entries[4].presence == .absent && t.roster.entries[4].misses == 2) = true := by decide +kernel

theorem test_reception_error_is_no_frame :
    yields (exec (.receptionError 4) (atTimer 720 joinedState)) (fun t => t.link.rx == .spoiled && !t.link.readbackBad) =
      true := by decide +kernel

theorem test_readback_mismatch_stops_sending :
    yields (exec .readbackMismatch { joinedState with link := { joinedState.link with
      txBuffer := [1], bits := { joinedState.link.bits with txBits := [true], sending := true } } }) (fun t =>
        t.link.readbackBad && !ltxDominant t) = true := by decide +kernel

/-! ## Carrier, gates and setpoints -/

/-- 06, Example: offsets of a group of three, N = 2. -/
theorem test_offsets_of_three :
    phaseOffset profile2 3200 1 0x52 = 0 ∧ phaseOffset profile2 3200 4 0x52 = 1066 ∧ phaseOffset profile2 3200 6 0x52 = 2133 := by
  decide +kernel

/-- 06, Example: corrections at a mark: station 1 goes 4 ticks forward with its valley load, and 4 ticks back without. -/
theorem test_corrections_at_a_mark :
    let c (position : Nat) : Carrier := { runningState.carrier with offset := 0, position := position }
    correction (c 3195) = 4 ∧ rephaseLoads (c 3195) = true ∧ correction (c 3) = 3196 ∧ rephaseLoads (c 3) = false := by
  decide +kernel

/-- 08, R124: the head of the queue becomes live, whichever of the advance and the load is judged first. -/
theorem test_load_takes_record (loadFirst : Bool) :
    let t := (loadAt 0 loadFirst { runningState with setpoint := { SetpointUnit.empty with queue := [record 3, record 2] } }).1
    t.setpoint.live.a.compare = 1000 ∧ t.setpoint.queue = [] ∧ t.host.reports.map (·.body) = [.staleSetpoint 1 3 2] := by
  cases loadFirst <;> decide +kernel

/-- The running station with leg A in SWITCH at 1000 and its upper gate on. -/
def switchingState : State :=
  { runningState with gate := { runningState.gate with legs := { runningState.gate.legs with
      a := { LegState.off with mode := .switch, compare := 1000, upper := true } } } }

/-- 07, One SWITCH leg over a period: at position 1000 the upper gate falls and the lower one waits. -/
theorem test_crossing_turns_upper_off :
    yields (exec (.compareCrossing 1000) switchingState) (fun t =>
      t.gate.legs.a == { LegState.off with mode := .switch, compare := 1000, pending := some .lower }) = true := by decide +kernel

/-- 07, the same: at position 1040 the lower gate turns on. -/
theorem test_dead_time_turns_lower_on :
    yields (exec (.deadTimeElapsed .a .lower) { runningState with gate := { runningState.gate with
      legs := { runningState.gate.legs with
        a := { LegState.off with mode := .switch, compare := 1000, pending := some .lower, count := 40 } } } }) (fun t =>
          t.gate.legs.a == { LegState.off with mode := .switch, compare := 1000, lower := true }) = true := by decide +kernel

/-! ## Trips -/

/-- 09, Example: a fault spreads and is cleared: FAULT0, TRIP with drive. -/
theorem test_fault_trips_and_drives :
    yields (exec (.filteredLevelChange (.flt 0)) (withFilter 0 ripe runningState)) (fun t =>
      t.station == .tripped && t.trip.first == some (.fault 0) && t.trip.causes == 1 && trpnDriven t &&
        (ownFrame t).tripClass == 1) = true := by decide +kernel

/-- 09, Example: a fault spreads and is cleared: a line that stays low refuses the CLEAR with detail 4. -/
theorem test_clear_sample_on_low_line :
    yields (exec (.clearSample true) { trippedState with trip := { trippedState.trip with
      first := some .tripLine, causes := 0x010, drive := false, settling := true } }) (fun t =>
        t.station == .tripped && t.host.result == .refusedActive && t.host.detail == 4 && t.host.reports.isEmpty) = true := by
  decide +kernel

theorem test_clear_sample_on_high_line :
    yields (exec (.clearSample false) { trippedState with trip := { trippedState.trip with
      drive := false, settling := true } }) (fun t => t.station == .joined && t.trip.first == none) = true := by decide +kernel

/-- 05, R91: RSTn low. -/
theorem test_reset_low_releases_outputs :
    yields (exec .rstnLow trippedState) (fun t => !trpnDriven t && !irqnLow t && !gatePin t .a .upper) = true := by decide +kernel

/-! ## Witnesses: the machine as a whole -/

theorem witness_step_runs_front_command :
    ({ joinedState with pending := [.nop, .hold] } : State).pending = .nop :: [.hold] := rfl

/-- A state with other levels on the pins. -/
def withPins (p : Pins) (s : State) : State := { s with pins := p }

/-- A state with what waits for the end of its tick. -/
def withWaiting (rs : List Postponed) (s : State) : State := { s with now := { s.now with waiting := rs } }

/-- A state within a bit time. -/
def inBit (phase : Nat) (sampled : Bool) (s : State) : State :=
  { s with link := { s.link with bits := { s.link.bits with phase := phase, sampled := sampled } } }

/-- The running state with the line pulled from outside. -/
def pulledState : State := withPins { Pins.idle with lineOthers := true } runningState

/-- A state at the end of a bit time, with another bit engine, mark state, timer and receiver. -/
def atBitEnd (mark : MarkState) (timer : Nat) (f : BitEngine → BitEngine) (s : State) : State :=
  let s := inBit 3 true s
  { s with link := { s.link with mark := mark, timer := timer, bits := f s.link.bits } }

theorem witness_idle_step :
    runningState.pending = [] ∧ runningState.pins.rstn = true ∧ runningState.now.waiting = [] ∧
      (withPins { Pins.idle with rstn := false } runningState).pins.rstn = false ∧
      (withWaiting [.content (frame1 0x52 .base)] runningState).now.waiting = .content (frame1 0x52 .base) :: [] ∧
      fromPeer (frame1 0x52 .base) runningState = true ∧ fromPeer (frame1 0x52 .base) offlineState = false ∧
      offlineState.station = .offline ∧ runningState.station ≠ .offline ∧
      (inBit 3 true runningState).link.bits.phase + 1 = ticksOf runningState.tables.link.divisor ∧
      (inBit 2 true pulledState).link.bits.phase + 1 ≠ ticksOf pulledState.tables.link.divisor ∧
      (inBit 0 false pulledState).link.bits.phase + 1 ≠ ticksOf pulledState.tables.link.divisor / 2 ∧
      (inBit 1 false pulledState).link.bits.phase + 1 = ticksOf pulledState.tables.link.divisor / 2 ∧
      (inBit 1 false runningState).link.bits.phase + 1 ≠ ticksOf runningState.tables.link.divisor ∧
      (withWaiting [.cause ⟨.mismatch, 1, some .pair⟩, .cause ⟨.starved, 6, none⟩] runningState).now.waiting =
        .cause ⟨.mismatch, 1, some .pair⟩ :: [.cause ⟨.starved, 6, none⟩] ∧
      ({ runningState.carrier with rerun := 1 } : Carrier).rerun ≠ 0 ∧ runningState.carrier.rerun = 0 ∧
      lrxDominant pulledState = true ∧ pulledState.link.bits.level = false ∧ lrxDominant runningState = false := by decide

/-- At the end of a bit time: the twelfth of a run in the tail and in window 7, of the own mark, and the events of the line. -/
theorem witness_idle_bit_end :
    let s := atBitEnd .quiet 1599 (fun b => { b with sample := true, run := .counting 1588 11 }) joinedState
    let own := atBitEnd .driving 11 (fun b => { b with driven := 11, sample := true }) joinedState
    let quiet := atBitEnd .quiet 1599 id joinedState
    let byte := atBitEnd .quiet 720 (fun b => { b with rx := .stop [] }) joinedState
    s.pending = [] ∧ s.link.bits.phase + 1 = ticksOf s.tables.link.divisor ∧ s.link.timer + 1 = cycleLength s ∧
      runKind s 1588 = .mark ∧ runKind s 1423 = .disturbance ∧ (1423 - 16) / 176 = (7 : StationNo).val ∧
      1423 < tailStart s ∧ onLink s = true ∧ own.link.mark = .driving ∧ own.link.bits.driven + 1 = 12 ∧
      quiet.link.bits.sample = false ∧ lrxDominant quiet = false ∧ quiet.link.timer + 1 = cycleLength quiet ∧
      (atTimer 1600 joinedState).link.timer = cycleLength joinedState ∧
      (atBitEnd .deferred 1600 id joinedState).link.mark = .deferred ∧
      (atBitEnd .quiet 1247 id joinedState).link.timer + 1 = 16 + 176 * ((6 : StationNo).val + 1) ∧
      (atBitEnd .quiet 1071 id joinedState).link.timer + 1 = 16 + 176 * joinedState.number.val ∧
      (atBitEnd .quiet 3199 id joinedState).link.timer + 1 = 2 * cycleLength joinedState ∧
      windowAt byte byte.link.timer = some 4 ∧ byte.link.bits.rx = .stop [] ∧ receiving byte = true ∧
      (atBitEnd .quiet 720 (fun b => { b with rx := .gap 2 }) joinedState).link.bits.rx = .gap 2 ∧
      (atBitEnd .quiet 733 (fun b => { b with sample := true, previous := false }) joinedState).link.bits.rx = .hunt ∧
      ¬(4 ≤ 733 - windowStart 4 ∧ 733 - windowStart 4 ≤ 12) := by decide

theorem witness_reset_pin :
    (Instr.unknownCommand 0x0E).wellFormed = true ∧ (∀ ids, Instr.unknownCommand 0x0E ≠ .powerOn ids) ∧
      ∀ ids, Instr.nop ≠ .powerOn ids := by
  refine ⟨by decide, ?_, ?_⟩ <;> intro _ h <;> cases h

theorem witness_bounds_and_record :
    QueuesBounded trippedState ∧ RecordLaw trippedState ∧ RecordLaw runningState ∧ step trippedState = .next (tick trippedState) :=
  ⟨⟨by decide, by decide⟩,
    ⟨fun h => absurd rfl h, fun _ => ⟨.fault 2, rfl, by decide⟩⟩,
    ⟨fun _ => by decide, fun h => absurd h (by decide)⟩, rfl⟩

theorem witness_output_law : OutputLaw runningState ∧ OutputLaw joinedState :=
  ⟨⟨by intro leg; cases leg <;> exact ⟨by decide, by decide⟩, fun h => absurd rfl h, fun _ => rfl⟩,
    ⟨by intro leg; cases leg <;> exact ⟨by decide, by decide⟩, fun _ => ⟨rfl, rfl⟩, fun h => absurd h (by decide)⟩⟩

theorem witness_view_law : ViewLaw runningState ∧ ViewLaw (withSlot (remoteSlot .agreed) joinedState) := by
  refine ⟨⟨by decide, ?_, ?_, ?_, ?_, by decide⟩, ⟨by decide, ?_, ?_, ?_, ?_, by decide⟩⟩
  · unfold paired; decide
  · intro h; rcases h with h | h | h <;> exact absurd h (by decide)
  · intro h; exact absurd rfl h
  · intro pair h; exact absurd h List.not_mem_nil
  · unfold paired; decide
  · intro h; rcases h with h | h | h <;> exact absurd h (by decide)
  · intro _; unfold paired; decide
  · intro pair h; exact absurd h List.not_mem_nil

theorem witness_table_law : TableLaw runningState where
  link := by unfold linkInRange; decide
  profiles := by unfold profileInRange; decide
  parked := rfl
  causes := by unfold rowAllowed; decide
  frozen := by decide
  starve := by decide
  idle := fun h => absurd rfl h

theorem witness_frame_law : FrameLaw runningState where
  number := by decide +kernel
  view := by decide +kernel
  slot := by decide +kernel
  collected := fun _ h => absurd h List.not_mem_nil
  heard := by decide +kernel
  own := by decide +kernel
  other := by decide +kernel
  quiet := fun h => absurd h (by decide +kernel)

theorem witness_all_laws :
    OutputLaw runningState ∧ TableLaw runningState ∧ ViewLaw runningState ∧ FrameLaw runningState ∧
      step runningState = .next (tick runningState) :=
  ⟨witness_output_law.1, witness_table_law, witness_view_law.1, witness_frame_law, rfl⟩

theorem witness_only_these_commands :
    yields (exec .join offlineState) (fun t => t.station != .offline) = true ∧ offlineState.station = .offline ∧
      yields (exec .nop runningState) (fun t => t.station == .running) = true ∧ runningState.station = .running ∧
      (∀ start, Instr.nop ≠ .markAccepted start) ∧ ∀ ids, Instr.nop ≠ .powerOn ids := by
  refine ⟨by decide +kernel, rfl, by decide +kernel, rfl, ?_, ?_⟩ <;> intro _ h <;> cases h

/-! ## Witnesses: host port -/

theorem witness_register_write :
    joinedState.pins.rstn = true ∧ (0x04 : BitVec 7) = BitVec.ofNat 7 (0x04 + (0 : Fin 8).val) ∧
      (0x0B : BitVec 7) = BitVec.ofNat 7 (0x04 + (7 : Fin 8).val) ∧ (0x0E : BitVec 7) = BitVec.ofNat 7 (0x0E + (0 : Fin 8).val) ∧
      (0x15 : BitVec 7) = BitVec.ofNat 7 (0x0E + (7 : Fin 8).val) ∧ (0x02 : BitVec 7) < 0x03 ∧ (0x16 : BitVec 7) ≤ 0x16 ∧
      (0x1A : BitVec 7) ≤ 0x1A := by
  decide

theorem witness_plain_commands :
    offlineState.station = .offline ∧ joinedState.station ≠ .offline ∧ 0x0E#8 ≤ 0x0E#8 ∧ 0x0E#8 ≤ 0xFF#8 ∧ 0x0D#8 < 0x0E#8 ∧
      offlineState.pins.rstn = true := by decide

/-- The joined state with a number of reports. -/
def withReports (n : Nat) : State :=
  { joinedState with host := { joinedState.host with
      reports := List.replicate n { body := .linkAlone, gap := false, cycle := 0, subject := 6 } } }

theorem witness_report_read :
    (withReports 1).host.reports = [{ body := .linkAlone, gap := false, cycle := 0, subject := 6 }] ∧
      joinedState.host.reports = [] ∧ (withReports 1).pins.rstn = true ∧ joinedState.host.port.entry = none ∧
      joinedState.pending = [] ∧ joinedState.now.waiting = [] ∧ joinedState.pins.csn = true := by decide

/-- A transfer in progress at the port: the level of SCK at the last tick and now, and the bits of the byte so far. -/
def transferState (transfer : Transfer) (clock sck : Bool) (count : Nat) : State :=
  withPins { Pins.idle with csn := false, sck := sck } { joinedState with host := { joinedState.host with
      port := { SpiPort.rest with selected := true, clock := clock, transfer := transfer, count := count } } }

/-- 11, R160: the clock rises in a command byte, in a write to COMMAND and in the last byte of REPORT, and falls in each kind of
byte; the port holds an entry of REPORT, or the zeros of an empty queue. -/
theorem witness_port :
    let s := transferState (.read 0x16 7) false true 7
    let p := s.host.port
    s.pins.rstn = true ∧ s.pending = [] ∧ s.now.waiting = [] ∧ s.pins.csn = false ∧ s.pins.sck = true ∧ p.selected = true ∧
      p.clock = false ∧ p.count = 7 ∧ p.transfer = .read 0x16 7 ∧
      (transferState .command false true 6).host.port.count < 7 ∧
      (transferState (.write 0x03 0) false true 7).host.port.transfer = .write 0x03 0 ∧ (0x04 : BitVec 7) ≠ 0x03 ∧
      (transferState .command true false 7).pins.sck = false ∧ (transferState .command true false 7).host.port.clock = true ∧
      (transferState (.read 0x16 0) true false 0).host.port.count = 0 ∧
      (transferState (.read 0x16 7) true false 7).host.port.count < 8 ∧
      ({ p with entry := some (Vector.replicate 8 0, false) } : SpiPort).entry = some (Vector.replicate 8 0, false) ∧
      (transferState (.read 0x18 2) false true 7).host.port.transfer = .read 0x18 2 ∧ (0x19 : BitVec 7) ≤ 0x19 ∧
      (0x1A : BitVec 7) ≤ 0x1A := by decide

theorem witness_posting : (withReports 15).host.reports.length < 16 ∧ (withReports 16).host.reports.length = 16 := by decide

theorem witness_tread :
    let z : Vector Byte 8 := Vector.replicate 8 0
    5 < (staged 6 0 z joinedState).host.tsel.toNat ∧ 1 ≤ (staged 0 1 z joinedState).host.tidx.toNat ∧
      8 ≤ (staged 1 8 z joinedState).host.tidx.toNat ∧ (staged 1 7 z joinedState).host.tidx.toNat < 8 ∧
      (staged 2 8 z joinedState).host.tidx.toNat < 9 ∧ (staged 3 63 z joinedState).host.tidx.toNat < 64 ∧
      (staged 4 6 z joinedState).host.tidx.toNat = joinedState.number.val ∧
      stationCount joinedState ≤ (staged 4 8 z joinedState).host.tidx.toNat ∧
      (staged 4 15 z joinedState).host.tidx.toNat < 16 ∧
      ((staged 4 7 z joinedState).host.tidx.toNat ≠ joinedState.number.val ∧
        (staged 4 7 z joinedState).host.tidx.toNat < stationCount joinedState ∧ joinedState.station ≠ .offline) ∧
      (staged 5 0 z joinedState).host.tsel = 5 := by decide

theorem witness_twrite_stores :
    linkInRange linkTable ∧ profileInRange profile2 ∧ rowAllowed 5 ⟨.respace, false⟩ ∧ offlineState.tables.frozen = false ∧
      offlineState.pending = [] ∧ offlineState.now.waiting = [] ∧
      (staged 0 0 (linkBytes linkTable 6) offlineState).host.tdata = linkBytes linkTable offlineState.number ∧
      (staged 1 7 (profileBytes profile2) offlineState).host.tidx.toNat = (7 : Fin 8).val ∧
      (staged 2 5 (causeBytes ⟨.respace, false⟩) offlineState).host.tidx.toNat = (5 : Fin 9).val ∧
      (staged 3 63 (legBytes allOff) offlineState).host.tidx.toNat = (63 : Fin 64).val := by
  refine ⟨?_, ?_, ?_, rfl, rfl, rfl, rfl, rfl, rfl, rfl⟩
  · unfold linkInRange; decide
  · unfold profileInRange; decide
  · unfold rowAllowed; decide

theorem witness_tread_in_range :
    linkInRange joinedState.tables.link ∧ profileInRange joinedState.tables.profiles[5] ∧
      profileInRange joinedState.tables.profiles[0] := by
  unfold linkInRange profileInRange; decide

/-- The fields of a LINK entry as TwriteRefusalsInOrder reads them: the divisor code, the least cycle length, the cycle length,
the lead and the miss limit. -/
def linkFields (b : Vector Byte 8) : List Nat :=
  [(b[0].extractLsb' 0 2).toNat, if b[0].getLsbD 2 then 2848 else 1440, b[1].toNat + 256 * b[2].toNat, b[3].toNat % 16,
    b[3].toNat / 16 % 8]

theorem witness_twrite_refuses :
    3 < (staged 4 0 (Vector.replicate 8 0) offlineState).host.tsel.toNat ∧
      7 < (staged 1 8 (Vector.replicate 8 0) offlineState).host.tidx.toNat ∧
      8 < (staged 2 9 (Vector.replicate 8 0) offlineState).host.tidx.toNat ∧
      63 < (staged 3 64 (Vector.replicate 8 0) offlineState).host.tidx.toNat ∧
      offlineState.tables.frozen = false ∧ joinedState.tables.frozen = true ∧
      linkFields #v[3, 0, 0, 0, 0, 0, 0, 0] = [3, 1440, 0, 0, 0] ∧
      linkFields #v[0, 0x9F, 0x05, 0, 0, 0, 0, 0] = [0, 1440, 1439, 0, 0] ∧
      linkFields #v[4, 0x00, 0x20, 0, 0, 0, 0, 0] = [0, 2848, 8192, 0, 0] ∧
      linkFields #v[0, 0xA0, 0x05, 0x02, 0, 0, 0, 0] = [0, 1440, 1440, 2, 0] ∧
      linkFields #v[4, 0xFF, 0x1F, 0x03, 0, 0, 0, 0] = [0, 2848, 8191, 3, 0] ∧
      linkFields #v[4, 0xFF, 0x1F, 0x53, 0, 0, 0, 0] = [0, 2848, 8191, 3, 5] := by decide +kernel

/-- The fields of a PROFILE entry as TwriteRefusalsInOrder reads them: the ratio code, the dead time, the load-point code, and the
start and length of the pattern. -/
def profileFields (b : Vector Byte 8) : List Nat :=
  [b[0].toNat / 2 % 4, b[1].toNat, b[0].toNat / 32 % 4, b[3].toNat % 64, b[4].toNat % 128]

/-- The modes of a PATTERN entry, leg A first. -/
def modeFields (b : Vector Byte 8) : List Nat := [b[0].toNat % 16, b[0].toNat / 16, b[1].toNat % 16]

theorem witness_twrite_refuses_other_tables :
    (staged 1 7 (Vector.replicate 8 0) offlineState).host.tidx.toNat ≤ 7 ∧
      profileFields #v[0x06, 1, 0, 0, 1, 0, 0, 0] = [3, 1, 0, 0, 1] ∧
      profileFields #v[0x04, 0, 0, 0, 1, 0, 0, 0] = [2, 0, 0, 0, 1] ∧
      profileFields #v[0x60, 1, 0, 0, 1, 0, 0, 0] = [0, 1, 3, 0, 1] ∧
      profileFields #v[0x40, 1, 0, 63, 2, 0, 0, 0] = [0, 1, 2, 63, 2] ∧
      (∀ i : Fin 9, (7 : Fin 9) ≤ i → actionAllowed i .ignore = false) ∧ actionAllowed 8 .report = false ∧
      actionAllowed 4 .respace = false ∧ actionAllowed 5 .respace = true ∧ actionAllowed 4 .trip = true ∧
      modeFields #v[0x34, 0x03, 0, 0, 0, 0, 0, 0] = [4, 3, 3] ∧ modeFields #v[0x43, 0x03, 0, 0, 0, 0, 0, 0] = [3, 4, 3] ∧
      modeFields #v[0x33, 0x04, 0, 0, 0, 0, 0, 0] = [3, 3, 4] := by decide +kernel

/-! ## Witnesses: station states -/

/-- The tables of the refused JOIN: L = 1601, so profile 3 has an odd period (10, Example: a JOIN refused twice). -/
def oddTables : Tables := { tables false with link := { linkTable with cycleLength := 1601 } }

theorem witness_cross_checks :
    firstInvalid (tables false) 6 = none ∧ (tables false).link.valid = true ∧ ¬(Tables.default.link.valid = true) ∧
      oddTables.profiles[3].configured = true ∧ oddTables.link.cycleLength * 4 / 4 % 2 = 1 ∧
      oddTables.link.cycleLength * 4 / 2 % 2 = 0 ∧ (oddTables.profiles[1].configured = false) := by decide +kernel

/-- The tables of the examples with a compare value beyond 1600 in the last entry that profile 5 plays. -/
def highPattern : Tables :=
  { tables false with pattern := Tables.default.pattern.set 12 { allOff with c := { mode := .off, compare := 1601 } } }

theorem witness_pattern_cross_check :
    highPattern.link.valid = true ∧ highPattern.profiles[5].configured = true ∧ highPattern.profiles[5].source = .pattern ∧
      highPattern.profiles[5].patternStart ≤ (12 : Fin 64).val ∧
      (12 : Fin 64).val < highPattern.profiles[5].patternStart + highPattern.profiles[5].patternLength ∧
      compareTop highPattern.link highPattern.profiles[5] < (highPattern.pattern[(12 : Fin 64)]).c.compare.toNat ∧
      (∀ e : Fin 64, e < 12 → highPattern.pattern[e] = allOff) := by decide +kernel

theorem witness_join :
    offlineState.station = .offline ∧ joinedState.station ≠ .offline ∧ offlineState.pins.rstn = true ∧
      firstInvalid offlineState.tables offlineState.number = none ∧
      firstInvalid State.reset.tables State.reset.number = some 0 ∧
      (withFault 3 offlineState).trip.faults[(3 : Fin 4)].asserted = true ∧
      (rowOf (withFault 3 offlineState).tables (.fault 3)).action = .trip ∧
      (∀ i : Fin 4, offlineState.trip.faults[i].asserted = false) := by decide +kernel

theorem witness_leave :
    (listeningState .seek 0 0 none).station = .listening ∧ trippedState.station = .tripped ∧ joinedState.station = .joined ∧
      joinedState.change.slot.state = .vacant ∧ runningState.station = .running ∧
      member 6 (withSlot (remoteSlot .agreed) joinedState).change.slot.electorate = true ∧
      (withSlot (remoteSlot .agreed) joinedState).change.slot.state ≠ .vacant := by decide

theorem witness_restart : offlineState.pins.rstn = true ∧ runningState.pins.rstn = true := by decide

/-- The offline state in the tick in which another claim has withdrawn the station from the state given. -/
def justLeft (b : State) : State :=
  { offlineState with now := { Moment.rest with left := some ⟨b.station, b.acq, b.link, b.tables⟩ } }

/-- 10, R152: a LINK entry written in the tick of a withdrawal acts from JOIN on, and gives no claim against a frame of the old link. -/
theorem test_claim_under_frozen_tables :
    let b := listeningState .listen 0 1 none
    let s := { justLeft b with tables := { offlineState.tables with link := { linkTable with linkCode := 91 } } }
    yields (exec (.frameReceived 1 (encodeFrame (frame1 0x52 .base))) s) (fun t => t.host.reports.isEmpty) = true := by decide +kernel

theorem witness_discarded_claims :
    (justLeft joinedState).station = .offline ∧ (justLeft joinedState).pins.rstn = true ∧
      (justLeft joinedState).now.left = some ⟨.joined, joinedState.acq, joinedState.link, joinedState.tables⟩ ∧
      (justLeft (listeningState .locking 2 0 none)).now.left =
        some ⟨.listening, (listeningState .locking 2 0 none).acq, Link.rest 0, (listeningState .locking 2 0 none).tables⟩ ∧
      2 ≤ ({ joinedState.link with shorts := 2 } : Link).shorts ∧ 2 ≤ (listeningState .locking 2 0 none).acq.failedLocks ∧
      (listeningState .listen 0 1 none).acq.phase = .listen ∧ (listeningState .listen 0 1 none).link.rx = .waiting ∧
      offlineState.number.val < countOf joinedState.tables.link.count ∧
      joinedState.tables.link.missLimit ≤ ({ joinedState.link with failures := 1 } : Link).failures + 1 ∧
      ¬(shortLimit (listeningState .locking 2 0 none) ≤ 1574 ∧
        1574 ≤ cycleLength (listeningState .locking 2 0 none) + 2) := by decide

theorem witness_bad_mark_timing :
    onLink joinedState = true ∧ offlineState.now.left = none ∧ (listeningState .locking 0 0 none).acq.phase ≠ .seek ∧
      (listeningState .seek 0 0 none).acq.phase = .seek ∧ offlineState.station = .offline ∧
      tailStart joinedState ≤ 1574 ∧ 1574 < cycleLength joinedState - cycleLength joinedState / 64 ∧
      2 ≤ ({ joinedState with link := { joinedState.link with shorts := 2 } } : State).link.shorts := by decide

/-- LISTENING with the filtered trip line asserted. -/
def heldLine (s : State) : State := { s with trip := { s.trip with tripLine := { asserted := true, run := 0 } } }

theorem witness_lone_start :
    (listeningState .seek 0 0 none).station = .listening ∧ (listeningState .seek 0 0 none).trip.tripLine.asserted = false ∧
      (heldLine (listeningState .seek 0 0 none)).trip.tripLine.asserted = true ∧
      (rowOf (listeningState .seek 0 0 none).tables .tripLine).action = .trip ∧ joinedState.station ≠ .listening ∧
      (rowOf (withRow .tripLine .report (heldLine (listeningState .seek 0 0 none))).tables .tripLine).action = .report ∧
      (withRow .tripLine .ignore (heldLine (listeningState .seek 0 0 none))).trip.tripLine.asserted = true ∧
      (rowOf (withRow .tripLine .ignore (listeningState .seek 0 0 none)).tables .tripLine).action = .ignore := by decide

theorem witness_stop :
    offlineState.station = .offline ∧ (listeningState .seek 0 0 none).station = .listening ∧ joinedState.station = .joined ∧
      runningState.station = .running ∧ trippedState.station = .tripped ∧ hasCause .host trippedState.trip.causes = false ∧
      hasCause .host 0x100 = true := by decide

theorem witness_clear :
    joinedState.station ≠ .tripped ∧ trippedState.station = .tripped ∧ hasCause (.fault 2) trippedState.trip.causes = true ∧
      (withFault 2 trippedState).trip.faults[(2 : Fin 4)].asserted = true ∧
      (∀ i : Fin 4, trippedState.trip.faults[i].asserted = false) := by decide

/-- The tripped state in the settle of a CLEAR. -/
def settlingState : State := { trippedState with trip := { trippedState.trip with drive := false, settling := true } }

theorem witness_clear_sample :
    settlingState.station = .tripped ∧ settlingState.trip.settling = true ∧ trippedState.trip.settling = false ∧
      (rowOf settlingState.tables .tripLine).action = .trip ∧
      (rowOf (withRow .tripLine .report settlingState).tables .tripLine).action ≠ .trip := by decide

theorem witness_fault_level :
    runningState.trip.faults[(3 : Fin 4)].asserted = false ∧ (withFault 0 runningState).trip.faults[(0 : Fin 4)].asserted = true ∧
      (withFilter 3 { ripe with run := 20 } runningState).trip.faults[(3 : Fin 4)].run < filterTicks runningState ∧
      (withFilter 3 ripe runningState).trip.faults[(3 : Fin 4)].run = filterTicks runningState ∧
      (justLeft (listeningState .seek 0 0 none)).now.left =
        some ⟨.listening, (listeningState .seek 0 0 none).acq, Link.rest 0, (listeningState .seek 0 0 none).tables⟩ ∧
      (rowOf runningState.tables (.fault 3)).action = .trip ∧
      (rowOf (withRow (.fault 3) .report runningState).tables (.fault 3)).action = .report ∧
      (rowOf (withRow (.fault 0) .ignore runningState).tables (.fault 0)).action = .ignore ∧
      trippedState.station = .tripped ∧ hasCause (.fault 3) trippedState.trip.causes = false ∧
      (listeningState .seek 0 0 none).station = .listening := by decide

/-- A state in the tick of its entry into JOINED. -/
def justArrived (s : State) : State := { s with now := { s.now with arrived := true } }

/-- 05, R90: the entry into JOINED taken first, then a fault of the same tick under TRIP. -/
theorem test_fault_after_entry_withdraws :
    yields (exec (.filteredLevelChange (.flt 3)) (withFilter 3 ripe (justArrived joinedState))) (fun t =>
      t.station == .offline && t.host.reports.map (·.body) == [.joinAborted 3, .leftLink .joinAborted .joined]) = true := by
  decide +kernel

theorem witness_fault_after_entry :
    (justArrived joinedState).station ≠ .offline ∧ (justArrived trippedState).station = .tripped ∧
      (justArrived joinedState).now.arrived = true ∧ runningState.now.arrived = false ∧
      (justArrived (justLeft joinedState)).now.arrived = true ∧
      (justArrived (justLeft joinedState)).now.left = some ⟨.joined, joinedState.acq, joinedState.link, joinedState.tables⟩ ∧
      (rowOf joinedState.tables (.fault 3)).action = .trip ∧
      joinedState.trip.faults[(3 : Fin 4)].asserted = false := by decide

/-- A state whose trip line has been low for the length of the filter, in a tick with or without a trip entry. -/
def ripeLine (entered : Bool) (s : State) : State :=
  { s with trip := { s.trip with tripLine := ripe }, now := { s.now with entered := entered } }

theorem witness_trip_line_level :
    (ripeLine true trippedState).trip.tripLine.run = filterTicks trippedState ∧
      (ripeLine true trippedState).now.entered = true ∧ (ripeLine false trippedState).now.entered = false ∧
      hasCause .tripLine trippedState.trip.causes = false ∧ hasCause .tripLine 0x010 = true ∧
      runningState.trip.tripLine.run < filterTicks runningState ∧
    runningState.trip.tripLine.asserted = false ∧ (heldLine runningState).trip.tripLine.asserted = true ∧
      joinedState.station = .joined ∧ trippedState.station = .tripped ∧ (rowOf runningState.tables .tripLine).action = .trip ∧
      (rowOf (withRow .tripLine .report joinedState).tables .tripLine).action = .report := by decide

/-! ## Witnesses: setpoints -/

/-- The joined state with a queue of records. -/
def withQueue (queue : List Setpoint) (s : State) : State := { s with setpoint := { s.setpoint with queue := queue } }

theorem witness_push :
    inGroup offlineState = false ∧ inGroup joinedState = true ∧ (profileAt joinedState.tables 2).configured = true ∧
      (profileAt joinedState.tables 7).configured = false ∧ compareTop linkTable profile2 = 1600 ∧
      (withQueue [record 2, record 2, record 2, record 2] joinedState).setpoint.queue.length = 4 ∧
      (withQueue [record 2, record 2, record 2] joinedState).setpoint.queue.length < 4 := by decide +kernel

theorem witness_flush : offlineState.pins.rstn = true ∧ (withQueue [record 2] runningState).setpoint.queue.length = 1 := by decide

theorem witness_load_point :
    runningState.station = .running ∧ runningState.carrier.running = true ∧
      settingHas runningState.carrier.loadSetting .valley = true ∧ (liveProfile runningState).source = .queue ∧
      (withQueue [record 3, record 5, record 2, record 3] runningState).setpoint.queue =
        [record 3, record 5] ++ record 2 :: [record 3] ∧ (record 2).tag = runningState.change.profile ∧
      (∀ x ∈ [record 3, record 5], x.tag ≠ runningState.change.profile) := by decide

/-- The STARVED of a load behind a command that may trip the station waits for it (R129, R139). -/
theorem test_starved_waits_for_a_claim :
    let t := raiseStarved true { withRow .starved .trip runningState with pending := [.stop] }
    t.station = .running ∧ t.now.waiting = [.cause ⟨.starved, t.number, none⟩] := by decide +kernel

/-- The running state within a starve run. -/
def starvedState (count : Nat) : State :=
  { runningState with setpoint := { SetpointUnit.empty with starve := count, starveRun := true } }

theorem witness_starved_load :
    (starvedState 2).setpoint.queue = [] ∧ (withQueue [record 3, record 3] (starvedState 2)).setpoint.queue.length = 2 ∧
      (record 3).tag ≠ (starvedState 2).change.profile ∧
      (starvedState 2).setpoint.starve + 1 = (starvedState 2).tables.link.starveLimit ∧
      ¬(starvedState 1).setpoint.starve + 1 = (starvedState 1).tables.link.starveLimit ∧
      ¬(starvedState 3).setpoint.starve + 1 = (starvedState 3).tables.link.starveLimit ∧
      (rowOf (withRow .starved .trip (starvedState 2)).tables .starved).action = .trip ∧
      (rowOf (withRow .starved .report (starvedState 2)).tables .starved).action = .report ∧
      (liveProfile (starvedState 2)).source = .queue ∧ ({ starvedState 2 with pending := [.windowEnd 1] } : State).pending.any mayClaim = true ∧
      ({ starvedState 2 with pending := [.push] } : State).pending.any mayClaim = false ∧ (starvedState 2).pending = [] ∧ hasCause .starved trippedState.trip.causes = false := by decide

theorem witness_pattern_load :
    (liveProfile (patternState 0 false)).source = .pattern ∧ (patternState 3 true).setpoint.ended = true ∧
      (patternState 2 false).setpoint.position < (liveProfile (patternState 2 false)).patternLength ∧
      (liveProfile (patternState 2 false)).patternStart + (patternState 2 false).setpoint.position < 64 ∧
      (patternState 3 false).setpoint.position = (liveProfile (patternState 3 false)).patternLength ∧
      (liveProfile (patternState 3 false)).patternRepeat = false ∧
      settingHas (patternState 0 false).carrier.loadSetting .valley = true := by decide

/-! ## Witnesses: carrier and gates -/

theorem witness_carrier_values :
    3200 % 2 = 0 ∧ 3199 < 3200 ∧ 1600 ≤ 3200 / 2 ∧ 3200 = 3200 / 2 + 1600 ∧ 3199 + 1 = 3200 ∧ member 1 0x52 = true ∧
      member 4 0x52 = true ∧ profile2.interleave = true ∧ Profile.parked.interleave = false ∧ member 2 0x52 = false ∧
      member 3 0x52 = false ∧ (1 : StationNo) < 4 := by decide

theorem witness_crossing :
    runningState.station = .running ∧ runningState.carrier.running = true ∧ 3199 < runningState.carrier.period ∧
      runningState.carrier.period ≤ 3200 ∧ joinedState.carrier.running = false := by decide

theorem witness_dead_time :
    let s (count : Nat) : State := { runningState with gate := { runningState.gate with
      legs := { runningState.gate.legs with
        b := { LegState.off with mode := .upperOn, pending := some .upper, count := count } } } }
    (s 40).station = .running ∧ ((s 40).gate.legs.get .b).pending = some .upper ∧
      ((s 40).gate.legs.get .b).pending ≠ some .lower ∧ (s 40).gate.deadTime ≤ ((s 40).gate.legs.get .b).count ∧
      ((s 39).gate.legs.get .b).count < (s 39).gate.deadTime ∧ joinedState.station ≠ .running := by decide

/-- 06, Example: corrections at a mark: at position 3195 with offset 0 the re-phase loads, and in the running state it does not. -/
theorem witness_rephase :
    let c : Carrier := { runningState.carrier with offset := 0, position := 3195 }
    runningState.carrier.running = true ∧ runningState.carrier.offset < runningState.carrier.period ∧
      runningState.carrier.position < runningState.carrier.period ∧ runningState.carrier.setThisTick = false ∧
      ({ runningState.carrier with setThisTick := true } : Carrier).setThisTick = true ∧
      rephaseLoads c = true ∧ c.offset < c.period ∧ c.position < c.period ∧ rephaseLoads runningState.carrier = false ∧
      rephaseLoads { c with rerun := 4 } = true ∧ rephaseLoads { c with rerun := 5 } = false ∧
      ¬correction { c with position := 3 } ≤ c.period / 2 := by
  decide +kernel

/-- 06, R100: 4 ticks back from 1602 to 1598 under PEAK, the peak at 1600 is passed again, without a second load point. -/
theorem test_backward_correction_signals_no_peak_again :
    let c : Carrier := { runningState.carrier with loadSetting := some .peak, offset := 1598, position := 1601 }
    let t (rerun : Nat) : State := { runningState with carrier := { c with position := 1599, rerun := rerun } }
    rephaseLoads c = false ∧ rerunAfter c = 3 ∧ (tickCarrier (t 2)).2 = [] ∧ (tickCarrier (t 0)).2 = [.loadPoint .peak] := by
  decide +kernel

theorem witness_rephase_at_mark :
    runningState.pins.rstn = true ∧ runningState.station = .running ∧ tailStart runningState ≤ 1600 ∧
      ¬1600 < cycleLength runningState - cycleLength runningState / 64 ∧ runningState.change.slot.state = .vacant ∧
      (markRephase { numbered 1600 runningState with free := runningState.free + 1 }).2 = false := by decide +kernel

/-- The running state one starved load before the limit, at a position from which the re-phase to offset 0 loads. -/
def starvingState : State :=
  let s := withRow .starved .trip (starvedState 2)
  { s with carrier := { s.carrier with offset := 0, position := 3195 } }

theorem witness_rephase_starves :
    (markRephase { numbered 1600 starvingState with free := starvingState.free + 1 }).2 = true ∧
      starvingState.station = .running ∧ starvingState.carrier.running = true ∧ starvingState.change.slot.state = .vacant ∧
      starvingState.pending = [] ∧ ({ starvingState with pending := [.windowEnd 1] } : State).pending.any mayClaim = true ∧
      (rowOf starvingState.tables .starved).action = .trip ∧
      (rowOf (withRow .starved .report starvingState).tables .starved).action ≠ .trip := by decide +kernel

/-- A gate demanded at both judgements of a load with a correction of 0: SWITCH above 1000, at 200 ticks into the period. -/
theorem witness_demanded_at_both :
    demand .switch 1000 (carrierValue (some .triangle) 3200 199) = some .upper ∧
      demand .switch 1000 (carrierValue (some .triangle) 3200 200) = some .upper := by decide +kernel

/-! ## Witnesses: marks -/

theorem witness_own_mark :
    onLink joinedState = true ∧ joinedState.link.mark = .quiet ∧
      ({ joinedState.link with mark := .deferred } : Link).mark = .deferred ∧
      ({ joinedState.link with mark := .driving } : Link).mark = .driving ∧ joinedState.link.bits.sending = false := by decide

/-- The joined state with a tally. -/
def withTally (tally : List CycleNo) (s : State) : State := { s with link := { s.link with tally := tally } }

theorem witness_mark_restarts :
    tailStart joinedState ≤ 1424 ∧ 1424 < cycleLength joinedState - cycleLength joinedState / 64 ∧
      joinedState.link.shorts < 2 ∧ ¬1575 < cycleLength joinedState - cycleLength joinedState / 64 ∧
      (2039 : CycleNo) ≠ joinedState.link.cycle ∧ (withTally [2039] joinedState).link.tally ≠ [] ∧
      offlineState.station = .offline ∧ offlineState.now.left = none ∧ onLink trippedState = true ∧
      trippedState.carrier.running = false ∧ joinedState.link.discord = false ∧
      ({ trippedState.link with discord := true } : Link).discord = true := by decide +kernel

theorem witness_tallies :
    (∀ v ∈ (withTally [2040, 2040] joinedState).link.tally, v = joinedState.link.cycle) ∧
      (∀ w ∈ (withTally [2039] joinedState).link.tally, w = 2039) ∧
      (2039 : CycleNo) ∈ (withTally [2039, 2040] joinedState).link.tally ∧
      (2040 : CycleNo) ∈ (withTally [2039, 2040] joinedState).link.tally ∧ (2039 : CycleNo) ≠ 2040 := by
  simp [withTally, joinedState, Link.rest]

/-- 05, Example: a station joins a running link: the lock range is 1575 to 1602. -/
theorem witness_acquisition :
    let s := listeningState .listen 0 4 (some 2040)
    s.station = .listening ∧ cycleLength s - cycleLength s / 64 = 1575 ∧ cycleLength s + 2 = 1602 ∧ s.acq.phase = .listen ∧
      s.acq.taken = some 2040 ∧ 2 ≤ s.acq.listening ∧ s.trip.tripLine.asserted = false ∧
      (listeningState .seek 0 0 none).acq.phase = .seek ∧ (listeningState .locking 0 0 none).acq.phase = .locking ∧
      (listeningState .listen 1 1 none).acq.failedLocks < 2 ∧ 2 ≤ (listeningState .locking 2 0 none).acq.failedLocks ∧
      (listeningState .listen 0 1 none).acq.listening = 1 ∧ (listeningState .listen 0 3 none).acq.listening ≤ 3 ∧
      (listeningState .listen 0 4 none).acq.listening = 4 ∧ (listeningState .listen 0 4 none).acq.taken = none ∧
      (heldLine s).trip.tripLine.asserted = true ∧ (rowOf s.tables .tripLine).action = .trip ∧
      (rowOf (withRow .tripLine .report s).tables .tripLine).action = .report ∧
      (justLeft (listeningState .listen 0 4 none)).now.left =
        some ⟨.listening, (listeningState .listen 0 4 none).acq, Link.rest 0, (listeningState .listen 0 4 none).tables⟩ := by decide

theorem witness_slip_and_deadline :
    (2039 : CycleNo) ≠ joinedState.link.cycle ∧ joinedState.change.slot.state = .vacant ∧
      (remoteSlot .opened).state = .opened ∧ ({ remoteSlot .opened with effective := 2040 } : Slot).effective = joinedState.link.cycle ∧
      (remoteSlot .opened).verdict = some .accept ∧ ({ remoteSlot .opened with verdict := some .held } : Slot).verdict = some .held ∧
      joinedState.carrier.running = false ∧ inGroup joinedState = true ∧ tailStart joinedState ≤ 1600 ∧
      (withTally [2040, 2040] (withSlot (remoteSlot .opened) joinedState)).link.tally = [2040, 2040] ∧
      (numbered 1600 (withTally [2040, 2040] (withSlot (remoteSlot .opened) joinedState))).change.slot.state ≠ .vacant := by
  decide +kernel

/-- Marks of the running carrier that close a slot: OPEN at its E, with and without a verdict of its own, and a slip. -/
theorem witness_running_close :
    let opened := withSlot { remoteSlot .opened with effective := 2041 } starvingState
    opened.station = .running ∧ opened.carrier.running = true ∧ tailStart opened ≤ 1575 ∧
      ¬1575 < cycleLength opened - cycleLength opened / 64 ∧ opened.link.tally = [] ∧
      opened.change.slot.effective = opened.link.cycle + 1 ∧ opened.change.slot.verdict = some .accept ∧
      (remoteSlot .agreed).effective ≠ opened.link.cycle + 1 ∧
      (withTally [2041] opened).link.tally ≠ [] ∧ (2041 : CycleNo) ≠ opened.link.cycle ∧
      opened.host.reports.length ≤ 8 ∧
      (markRephase { numbered 1575 opened with free := opened.free + 1 }).2 = true ∧
      (withSlot (remoteSlot .opened) runningState).change.slot.effective ≠ runningState.link.cycle + 1 ∧
      (rowOf (withRow .peerLoss .respace opened).tables .peerLoss).action = .respace ∧
      ({ opened.roster with lost := 0x10 } : Roster).lost ≠ 0 := by
  decide +kernel

/-- The joined state one cycle before the application of the admission, after a cycle with two frames. -/
def admissionState : State :=
  let s := withTally [2043, 2043] (withSlot (remoteSlot .agreed) joinedState)
  { s with link := { s.link with cycle := 2043 } }

/-- The same for a RUNNING station that the change retires. -/
def retirementState : State :=
  let s := withTally [2043, 2043] (withSlot { remoteSlot .agreed with newSet := 0x12 } runningState)
  { s with link := { s.link with cycle := 2043 } }

/-- The hypotheses of AgreedChangeIsAppliedAtItsMark about the slot and the mark, for a run that began at `start`. -/
def ApplicationDue (start : Nat) (s : State) : Prop :=
  s.pins.rstn = true ∧ s.pending = [] ∧ inGroup s = true ∧ tailStart s ≤ start ∧
    (start < cycleLength s - cycleLength s / 64 → s.link.shorts < 2) ∧
    (∀ v, s.link.tally ≠ [] → (∀ w ∈ s.link.tally, w = v) → v = s.link.cycle) ∧
    s.change.slot.state = .agreed ∧ s.change.slot.effective = s.link.cycle + 1

/-- The admission state after a cycle with a discord, and before a second short interval. -/
def unevenState : State :=
  let s := withTally [2042, 2041] admissionState
  { s with link := { s.link with shorts := 1 } }

theorem application_due_of_uneven : ApplicationDue 1424 unevenState := by
  refine ⟨rfl, rfl, rfl, by decide +kernel, fun _ => by decide +kernel, fun v _ h => ?_, rfl, rfl⟩
  have first := h 2042 (by simp [unevenState, withTally])
  have second := h 2041 (by simp [unevenState, withTally])
  exact absurd (first.trans second.symm) (by decide)

theorem application_due (s : State) (rstn : s.pins.rstn = true) (idle : s.pending = []) (group : inGroup s = true)
    (tail : tailStart s ≤ 1575) (length : ¬1575 < cycleLength s - cycleLength s / 64)
    (tally : s.link.tally = [s.link.cycle, s.link.cycle]) (agreed : s.change.slot.state = .agreed)
    (due : s.change.slot.effective = s.link.cycle + 1) : ApplicationDue 1575 s :=
  ⟨rstn, idle, group, tail, fun h => absurd h length, fun _ _ h => (h _ (by rw [tally]; exact List.mem_cons_self)).symm,
    agreed, due⟩

theorem witness_application :
    OutputLaw admissionState ∧ ApplicationDue 1575 admissionState ∧ ApplicationDue 1424 unevenState ∧
      member admissionState.number admissionState.change.slot.newSet = true ∧ admissionState.host.reports.length ≤ 8 ∧
      (rowOf admissionState.tables .peerLoss).action = .trip ∧
      lostEntry 0 { peer .running 0x12 2 with presence := .absent } = true ∧ member 4 (0x52 : StationSet) = true := by
  refine ⟨⟨fun leg => ?_, fun _ => ⟨rfl, rfl⟩, fun h => absurd h (by decide +kernel)⟩,
    application_due _ rfl rfl rfl ?_ ?_ rfl rfl rfl, application_due_of_uneven, rfl, ?_, ?_, rfl, rfl⟩
  · cases leg <;> unfold legSafe <;> decide +kernel
  all_goals decide +kernel

/-- Station 6 without a view, one cycle before a change that admits it together with 1 and 4, all of them JOINED (09, R147). -/
def restartState : State :=
  let s := withSlot { remoteSlot .agreed with baseSet := 0, baseProfile := 0 } { joinedState with roster := peers .joined 0 0 }
  { s with link := { s.link with cycle := 2043 }, change := { s.change with view := 0, profile := 0 } }

/-- 09, R147, 12, R175: the group starts again at the effective cycle: no member is lost and no station trips. -/
theorem test_group_starts_again :
    yields (exec (.markAccepted 1600) restartState) (fun t =>
      t.station == .running && t.change.view == 0x52 && t.roster.lost == 0 && t.carrier.running) = true := by decide +kernel

theorem witness_entering :
    lostEntry 0 restartState.roster.entries[(4 : StationNo)] = true ∧ member 4 restartState.change.view = false ∧
      restartState.roster.entries[(4 : StationNo)].presence = .present ∧
      restartState.roster.entries[(4 : StationNo)].state = some .joined ∧
      restartState.roster.entries[(4 : StationNo)].group = restartState.tables.link.group ∧
      member 4 restartState.roster.lost = false := by decide

theorem witness_retirement :
    OutputLaw retirementState ∧ ApplicationDue 1575 retirementState ∧
      member retirementState.number retirementState.change.slot.newSet = false ∧ retirementState.station = .running := by
  refine ⟨⟨fun leg => ?_, fun h => absurd rfl h, fun _ => rfl⟩, application_due _ rfl rfl rfl ?_ ?_ rfl rfl rfl, ?_, rfl⟩
  · cases leg <;> unfold legSafe <;> decide +kernel
  all_goals decide +kernel

/-- The immediate load starves at the first load with a limit of 1 and an empty queue. -/
theorem witness_application_starves :
    let t := { admissionState.tables with link := { linkTable with starveLimit := 1 } }
    t.link.starveLimit = 1 ∧ (profileAt t 2).source = .queue ∧ admissionState.setpoint.queue = [] ∧
      (rowOf t .starved).action = .trip := by decide +kernel

/-- The joined state with a refresh collection. -/
def withCollection (pairs : List (StationSet × ProfileNo)) : State :=
  { joinedState with change := { joinedState.change with collection := pairs } }

theorem witness_refresh :
    joinedState.station = .joined ∧ joinedState.change.slot.state = .vacant ∧ joinedState.change.collection = [] ∧
      (∀ q ∈ (withCollection [(0x12, 3), (0x12, 3)]).change.collection, q = (0x12, 3)) ∧ member 6 0x12 = false ∧
      (∃ q ∈ (withCollection [(0x12, 3), (0x12, 2)]).change.collection,
        ∃ q' ∈ (withCollection [(0x12, 3), (0x12, 2)]).change.collection, q ≠ q') ∧
      (∃ pair ∈ (withCollection [(0x52, 2)]).change.collection,
        (∀ q ∈ (withCollection [(0x52, 2)]).change.collection, q = pair) ∧ member joinedState.number pair.1 = true) :=
  ⟨rfl, rfl, rfl, by simp [withCollection], rfl, ⟨(0x12, 3), by simp [withCollection], (0x12, 2), by simp [withCollection],
    by decide⟩, ⟨(0x52, 2), by simp [withCollection], by simp [withCollection], rfl⟩⟩

theorem witness_refresh_at_mark :
    joinedState.pins.rstn = true ∧ joinedState.carrier.running = false ∧ tailStart joinedState ≤ 1424 ∧
      joinedState.link.shorts < 2 ∧ joinedState.link.tally = [] := by decide +kernel

/-! ## Witnesses: proposals and votes -/

theorem witness_propose :
    inGroup offlineState = false ∧ inGroup joinedState = true ∧ (withSlot (remoteSlot .opened) joinedState).change.slot.state ≠ .vacant ∧
      joinedState.change.slot.state = .vacant ∧ (profileAt joinedState.tables 2).configured = true ∧
      (profileAt joinedState.tables 7).configured = false ∧ inStanding joinedState 1 = true ∧ inStanding joinedState 4 = true ∧
      inStanding joinedState 0 = false ∧ inStanding joinedState 8 = false ∧ joinedState.change.view = 0x12 ∧
      joinedState.change.profile = 2 := by decide +kernel

/-- A frame of station 4, RUNNING with 1 under profile 2. -/
def frame4 (part : FramePart) : Frame := { frame1 0x12 part with sender := 4 }

theorem witness_valid_frame :
    ValidInWindow (frame1 0x12 (.proposal proposal1)) joinedState ∧ Quiet (frame1 0x12 (.proposal proposal1)) joinedState ∧
      joinedState.pins.rstn = true :=
  ⟨by constructor <;> decide,
    ⟨.inl rfl, rfl, rfl, fun _ h => absurd h (by decide), fun h => absurd h (by decide)⟩, rfl⟩

theorem witness_valid_vote :
    let f := frame4 (.vote { proposer := 1, sequence := 3, verdict := .accept })
    ValidInWindow f (withSlot (remoteSlot .opened) joinedState) ∧ Quiet f (withSlot (remoteSlot .opened) joinedState) :=
  ⟨by constructor <;> decide,
    ⟨.inl rfl, rfl, rfl, fun _ h => absurd h (by decide), fun h => absurd h (by decide)⟩⟩

/-- The vote of station 6, JOINED, at the RUNNING proposer of its admission (02, Example: frames of one admission). -/
theorem witness_valid_joined_vote :
    let vote : Vote := { proposer := 1, sequence := 3, verdict := .accept }
    let f : Frame := { frame1 0x12 (.vote vote) with sender := 6, state := .joined }
    let s : State := withSlot { localSlot .opened false with proposer := 1 } { runningState with
      number := 1, change := { (ChangeUnit.empty 4) with view := 0x12, profile := 2 } }
    ValidInWindow f s ∧ Quiet f s ∧ s.station = .running :=
  ⟨by constructor <;> decide, ⟨.inr rfl, rfl, rfl, fun h => absurd h (by decide), fun _ => by decide⟩, rfl⟩

/-- A state in which the next miss makes the entry of station 4 ABSENT. -/
def missing4 (s : State) : State :=
  { s with roster := { s.roster with
      entries := s.roster.entries.set 4 { s.roster.entries[(4 : StationNo)] with misses := 1 } } }

theorem witness_absence :
    inStanding (missing4 joinedState) 4 = true ∧ (missing4 joinedState).station = .joined ∧
      (missing4 joinedState).link.rx ≠ .handedOver ∧ (4 : StationNo) ≠ joinedState.number ∧
      (4 : StationNo).val < stationCount joinedState ∧
      joinedState.tables.link.missLimit ≤ (missing4 joinedState).roster.entries[(4 : StationNo)].misses + 1 := by decide

theorem witness_absence_of_member :
    let s := missing4 (withRow .peerLoss .respace runningState)
    s.station = .running ∧ s.roster.entries[(4 : StationNo)].presence = .present ∧
      s.tables.link.missLimit ≤ s.roster.entries[(4 : StationNo)].misses + 1 ∧ member 4 s.change.view = true ∧
      member 4 s.roster.lost = false ∧ (rowOf s.tables .peerLoss).action = .respace ∧ s.change.slot.state = .vacant ∧
      s.link.rx ≠ .handedOver := by decide

theorem witness_verdicts :
    verdictOn joinedState (frame1 0x12 .base) proposal1 = .accept ∧
      verdictOn joinedState (frame1 0x12 .base) { proposal1 with effective := 2041 } = .late ∧
      verdictOn joinedState (frame1 0x52 .base) proposal1 = .basis ∧
      verdictOn { joinedState with roster := peers .tripped 0 0 } (frame1 0x12 .base) proposal1 = .member ∧
      verdictOn joinedState (frame1 0x12 .base) { proposal1 with newProfile := 7 } = .profile ∧
      verdictOn { joinedState with change := { joinedState.change with hold := true } } (frame1 0x12 .base) proposal1 = .held := by
  decide

theorem witness_adoption :
    (proposal1.effective - joinedState.link.cycle).toNat = 4 ∧
      ((2055 : CycleNo) - joinedState.link.cycle).toNat = 15 ∧ ((2056 : CycleNo) - joinedState.link.cycle).toNat = 16 ∧
      ((2041 : CycleNo) - joinedState.link.cycle).toNat = 1 ∧ joinedState.change.slot.state = .vacant ∧
      (withSlot (localSlot .pending false) joinedState).change.slot.state = .pending ∧
      (withSlot (localSlot .pending true) runningState).change.slot.automatic = true ∧
      (localSlot .pending true).newSet = proposal1.newSet ∧ (remoteSlot .opened).state = .opened := by decide

theorem witness_vote :
    (remoteSlot .opened).state = .opened ∧ member 4 (remoteSlot .opened).electorate = true ∧
      member 2 (remoteSlot .opened).electorate = false ∧ (remoteSlot .opened).proposer = 1 ∧
      (remoteSlot .opened).sequence = some 3 ∧ (remoteSlot .opened).remote = true ∧ (localSlot .opened false).remote = false ∧
      (4 : StationNo) ≠ (remoteSlot .opened).proposer ∧ Verdict.held ≠ .accept := by decide

theorem witness_notice :
    (remoteSlot .opened).state = .opened ∧ (remoteSlot .opened).remote = true ∧ (remoteSlot .opened).proposer = 1 ∧
      member 4 (remoteSlot .opened).electorate = true ∧ (remoteSlot .opened).proposer ≠ 4 ∧
      member 2 (remoteSlot .opened).electorate = false ∧ (remoteSlot .agreed).state = .agreed ∧
      (localSlot .pending true).automatic = true ∧ (localSlot .pending false).automatic = false ∧
      (withRow .peerLoss .respace runningState).roster.lost = 0 ∧ (localSlot .pending true).state = .pending := by decide

/-- The running state with station 4 lost under a RESPACE row. -/
def lossState : State :=
  let s := withRow .peerLoss .respace runningState
  { s with roster := { s.roster with lost := 0x10 } }

theorem witness_automatic_drop :
    ViewLaw lossState ∧ lossState.station = .running ∧ (rowOf lossState.tables .peerLoss).action = .respace ∧
      lossState.change.slot.state = .vacant ∧ lossState.roster.lost ≠ 0 ∧ runningState.roster.lost = 0 := by
  refine ⟨⟨by decide, ?_, ?_, ?_, ?_, by decide⟩, rfl, ?_, rfl, ?_, rfl⟩
  · unfold paired; decide
  · intro h; rcases h with h | h | h <;> exact absurd h (by decide)
  · intro h; exact absurd rfl h
  · intro pair h; exact absurd h List.not_mem_nil
  all_goals decide

/-! ## Witnesses: windows and frames -/

theorem witness_own_frame :
    ViewLaw runningState ∧ RecordLaw runningState ∧ FrameLaw runningState ∧ onLink runningState = true :=
  ⟨witness_view_law.1, witness_bounds_and_record.2.2.1, witness_frame_law, rfl⟩

theorem witness_own_window :
    onLink joinedState = true ∧ joinedState.station ≠ .tripped ∧ trippedState.trip.first = some (.fault 2) ∧
      trippedState.station = .tripped ∧ inGroup (withSlot (localSlot .pending false) joinedState) = true ∧
      (withSlot (localSlot .pending false) joinedState).change.slot.state = .pending ∧
      ¬(inGroup joinedState = true ∧ joinedState.change.slot.state = .pending) ∧ (localSlot .pending false).remote = false ∧
      ¬(∀ k, member k (localSlot .pending false).electorate = true → k ≠ (6 : StationNo) →
        member k (localSlot .pending false).accepts = true) ∧
      (∀ k, member k (0x40 : StationSet) = true → k ≠ (6 : StationNo) → member k (0 : StationSet) = true) := by decide +kernel

theorem witness_repeated_part :
    let s := withSlot (localSlot .opened false) joinedState
    let v := withSlot (remoteSlot .agreed) joinedState
    inGroup s = true ∧ s.change.slot.state ≠ .vacant ∧ s.change.slot.remote = false ∧ s.change.slot.sequence = some 3 ∧
      v.change.slot.remote = true ∧ v.change.slot.verdict = some .accept ∧ v.change.slot.sequence = some 3 ∧
      member v.number v.change.slot.electorate = true ∧
      ({ remoteSlot .opened with verdict := none } : Slot).verdict = none := by decide

theorem witness_own_readback :
    let sent := encodeFrame (ownFrame joinedState)
    let s : State := { joinedState with link := { joinedState.link with txBuffer := sent } }
    onLink s = true ∧ s.number.val < stationCount s ∧ s.link.rx = .waiting ∧
      checkFrame s.tables.link s.number sent = .valid (ownFrame joinedState) ∧
      checkFrame s.tables.link s.number (sent.set 0 0) = .invalid := by decide +kernel

theorem witness_frame_fills_entry :
    let f := frame1 0x12 .base
    onLink joinedState = true ∧ f.sender ≠ joinedState.number ∧ f.sender.val < stationCount joinedState ∧
      joinedState.link.rx = .waiting ∧ f.linkCode = joinedState.tables.link.linkCode ∧
      malformed joinedState.tables.link.count f = false ∧ f.group = joinedState.tables.link.group ∧ f.state = .running ∧
      joinedState.roster.entries[(1 : StationNo)].presence = .present ∧ trippedFrame.state ≠ .running ∧
      ({ f with group := 1 } : Frame).group ≠ joinedState.tables.link.group ∧ (7 : StationNo).val < stationCount joinedState ∧
      joinedState.roster.entries[(2 : StationNo)].presence ≠ .present ∧ offlineState.now.left = none ∧
      checkFrame joinedState.tables.link 4 [0] = .invalid ∧ stationCount joinedState ≤ (8 : StationNo).val ∧
      receiving offlineState = false ∧ ({ joinedState.link with rx := .handedOver } : Link).rx ≠ .waiting := by decide +kernel

theorem witness_listening_frame :
    let s := listeningState .listen 0 2 none
    let f := frame1 0x12 .base
    s.station = .listening ∧ s.acq.phase = .listen ∧ s.link.rx = .waiting ∧ f.sender.val < stationCount s ∧
      malformed s.tables.link.count f = false ∧ f.linkCode = s.tables.link.linkCode ∧ f.sender ≠ s.number ∧
      s.roster.entries[f.sender].presence = .unseen ∧
      ({ s with roster := peers .running 0x12 2 } : State).roster.entries[f.sender].presence = .present ∧
      2 ≤ s.acq.listening ∧ s.acq.taken = none ∧ (listeningState .listen 0 1 none).acq.listening < 2 ∧
      ({ f with sender := 6 } : Frame).sender = s.number ∧ malformed s.tables.link.count { f with sender := 6 } = true ∧
      malformed s.tables.link.count { f with sender := 6, state := .joined } = false ∧
      ({ f with linkCode := 91 } : Frame).linkCode ≠ s.tables.link.linkCode := by decide

theorem witness_window_end :
    receiving joinedState = true ∧ (4 : StationNo) ≠ joinedState.number ∧ (4 : StationNo).val < stationCount joinedState ∧
      joinedState.link.rx ≠ .handedOver ∧ joinedState.roster.entries[4].presence = .present ∧
      joinedState.roster.entries[4].misses + 1 < joinedState.tables.link.missLimit ∧
      joinedState.tables.link.missLimit ≤ ({ peer .running 0x12 2 with misses := 1 } : RosterEntry).misses + 1 ∧
      joinedState.roster.entries[7].presence ≠ .present := by decide

theorem witness_readback :
    onLink joinedState = true ∧ joinedState.number.val < stationCount joinedState ∧ joinedState.link.txBuffer = [] ∧
      ({ joinedState.link with txBuffer := [0], readbackBad := true } : Link).txBuffer ≠ [] ∧
      joinedState.link.failures + 1 < joinedState.tables.link.missLimit ∧
      joinedState.tables.link.missLimit ≤ ({ joinedState.link with failures := 1 } : Link).failures + 1 ∧
      joinedState.link.rx = .waiting ∧ ({ joinedState.link with rx := .spoiled } : Link).rx ≠ .waiting ∧
      joinedState.link.readbackBad = false ∧ onLink offlineState = false := by decide

/-- 01, R5: window 7 of eight is in progress from 1248 to 1423. -/
theorem witness_disturbance :
    let listening := atTimer 1423 (listeningState .listen 0 2 none)
    windowAt joinedState 1248 = some 7 ∧ windowAt joinedState 1423 = some 7 ∧ windowAt joinedState 1247 ≠ some 7 ∧
      windowAt joinedState 1424 = none ∧ windowAt joinedState 16 = some 0 ∧ windowAt joinedState 15 = none ∧
      listening.station = .listening ∧ listening.acq.phase = .listen ∧ windowAt listening listening.link.timer = some 7 ∧
      listening.link.rx = .waiting ∧
    onLink joinedState = true ∧ (7 : StationNo).val < stationCount joinedState ∧ joinedState.link.rx = .waiting ∧
      stationCount joinedState ≤ (8 : StationNo).val ∧ receiving offlineState = false ∧ 16 ≤ 16 ∧ 1423 < tailStart joinedState ∧
      (1423 - 16) / 176 = (7 : StationNo).val ∧ (16 - 16) / 176 = (0 : StationNo).val := by decide

theorem witness_loss :
    runningState.station = .running ∧ trippedFrame.sender ≠ runningState.number ∧
      trippedFrame.sender.val < stationCount runningState ∧ runningState.link.rx = .waiting ∧
      trippedFrame.linkCode = runningState.tables.link.linkCode ∧ malformed runningState.tables.link.count trippedFrame = false ∧
      trippedFrame.state = .tripped ∧ trippedFrame.group = runningState.tables.link.group ∧
      member trippedFrame.sender runningState.change.view = true ∧
      runningState.roster.entries[trippedFrame.sender].presence = .present ∧
      member trippedFrame.sender runningState.roster.lost = false ∧
      (rowOf (withRow .peerLoss .trip runningState).tables .peerLoss).action = .trip ∧
      (rowOf (withRow .peerLoss .respace runningState).tables .peerLoss).action = .respace ∧
      runningState.change.slot.state = .vacant := by decide

/-- Station 1 shows itself JOINED, or in group 1; and the miss that makes station 4 ABSENT, under a TRIP row. -/
theorem witness_other_losses :
    let joined := { frame1 0x50 .base with state := .joined }
    let regrouped := { frame1 0x12 .base with group := 1 }
    let s := missing4 (withRow .peerLoss .trip runningState)
    joined.state ≠ .running ∧ malformed s.tables.link.count joined = false ∧ joined.part = .base ∧
      regrouped.group ≠ s.tables.link.group ∧ malformed s.tables.link.count regrouped = false ∧
      member regrouped.sender s.change.view = true ∧ s.roster.entries[regrouped.sender].presence = .present ∧
      s.station = .running ∧ s.link.rx ≠ .handedOver ∧ member 4 s.change.view = true ∧
      s.roster.entries[(4 : StationNo)].presence = .present ∧
      s.tables.link.missLimit ≤ s.roster.entries[(4 : StationNo)].misses + 1 ∧ member 4 s.roster.lost = false ∧
      (rowOf s.tables .peerLoss).action = .trip ∧ s.pending = [] ∧ ({ s with pending := [.nop] } : State).pending ≠ [] := by
  decide

theorem witness_mismatch :
    let pair := frame1 0x42 .base
    let outsider := { frame1 0x04 .base with sender := 2 }
    runningState.station = .running ∧ pair.sender ≠ runningState.number ∧
      malformed runningState.tables.link.count pair = false ∧ pair.set ≠ runningState.change.view ∧
      malformed runningState.tables.link.count outsider = false ∧ runningState.roster.entries[(1 : StationNo)].presence = .present ∧
      member 1 runningState.change.view = true ∧
      member 2 runningState.change.view = false ∧
      (runningState.roster.entries.set 2 (peer .running 0x04 2))[(2 : StationNo)].presence = .present ∧
      (rowOf runningState.tables .mismatch).action = .trip ∧
      (rowOf (withRow .mismatch .report runningState).tables .mismatch).action = .report ∧
      runningState.roster.mismatch = false ∧ ({ runningState with pending := [.nop] } : State).pending ≠ [] := by decide

end Sys2Proof.Tests
end

section
/-! SUPPORT. The meanings of the link's commands while RSTn is high, one equation for each; and what its tests on the station state
say (R6, R7, R8, R12 to R16). -/

namespace Sys2Proof.Machine

/-! ## The commands of the link while RSTn is high -/

theorem exec_timerReachesL (dominant : Bool) {s : State} (h : s.pins.rstn = true) :
    exec (.timerReachesL dominant) s = .next (timerStep dominant s) := whilePowered_on _ h

theorem exec_deferredMarkStart {s : State} (h : s.pins.rstn = true) :
    exec .deferredMarkStart s = .next (deferredStep s) := whilePowered_on _ h

theorem exec_markDriveEnd {s : State} (h : s.pins.rstn = true) : exec .markDriveEnd s = .next (markEndStep s) :=
  whilePowered_on _ h

theorem exec_markAccepted (start : Nat) {s : State} (h : s.pins.rstn = true) :
    exec (.markAccepted start) s = .next (runStep start s) := whilePowered_on _ h

theorem exec_lineDisturbance (k : StationNo) {s : State} (h : s.pins.rstn = true) :
    exec (.lineDisturbance k) s = .next (if onLink s then spoilWindow k s else s) := whilePowered_on _ h

theorem exec_markTimeout {s : State} (h : s.pins.rstn = true) : exec .markTimeout s = .next (timeoutStep s) :=
  whilePowered_on _ h

theorem exec_ownWindowStart {s : State} (h : s.pins.rstn = true) :
    exec .ownWindowStart s = .next (if onLink s then ownWindow s else s) := whilePowered_on _ h

theorem exec_frameReceived (k : StationNo) (bytes : List Byte) {s : State} (h : s.pins.rstn = true) :
    exec (.frameReceived k bytes) s = .next
      (if s.station = .offline then discardedClaim (frameClaim k bytes) s else completeFrame k bytes s) :=
  whilePowered_on
    (fun s => if s.station = .offline then discardedClaim (frameClaim k bytes) s else completeFrame k bytes s) h

theorem exec_windowEnd (k : StationNo) {s : State} (h : s.pins.rstn = true) :
    exec (.windowEnd k) s = .next
      (if s.station = .offline then discardedClaim (windowClaim k) s else endWindow k s) :=
  whilePowered_on (fun s => if s.station = .offline then discardedClaim (windowClaim k) s else endWindow k s) h

theorem exec_receptionError (k : StationNo) {s : State} (h : s.pins.rstn = true) :
    exec (.receptionError k) s = .next (spoilWindow k s) := whilePowered_on _ h

theorem exec_readbackMismatch {s : State} (h : s.pins.rstn = true) :
    exec .readbackMismatch s = .next (if onLink s = true ∧ s.link.txBuffer ≠ [] then stopSending s else s) :=
  whilePowered_on _ h

/-! ## Tests on the station state -/

theorem onLink_iff (s : State) :
    onLink s = true ↔ s.station = .joined ∨ s.station = .running ∨ s.station = .tripped := by
  unfold onLink; cases s.station <;> simp

theorem not_offline_of_onLink {s : State} (h : onLink s = true) : s.station ≠ .offline := by
  intro e; simp [onLink, e] at h

theorem onLink_of_listening {s : State} (h : s.station = .listening) : onLink s = false := by simp [onLink, h]

theorem receiving_of_onLink {s : State} (h : onLink s = true) : receiving s = true := by simp [receiving, h]

theorem not_offline_of_receiving {s : State} (h : receiving s = true) : s.station ≠ .offline := by
  intro e; simp [receiving, onLink, e] at h

theorem timed_iff (k : StationNo) (s : State) : timed k s = true ↔ receiving s = true ∧ k.val < stationCount s := by
  simp [timed]

theorem timerRuns_iff (s : State) :
    timerRuns s = true ↔ onLink s = true ∨ s.station = .listening ∧ s.acq.phase ≠ .seek := by
  simp [timerRuns]

/-- In the tail every run of twelve bit times is a mark, in a window it is a disturbance, and in the mark field it is nothing
(R8). -/
theorem runKind_onLink {s : State} (h : onLink s = true) (start : Nat) :
    runKind s start = if tailStart s ≤ start then .mark else if 16 ≤ start then .disturbance else .ignored := by
  unfold runKind
  rcases (onLink_iff s).1 h with e | e | e <;> rw [e]

/-! ## Withdrawals from the link (R88) -/

/-- A withdrawal reads of the carrier nothing and of the link only the cycle number. -/
theorem Withdrawn.of_link {cause : WithdrawalCause} {claimant : List Report} {s t : State} {c : Carrier} {l : Link}
    (h : Withdrawn cause claimant { s with carrier := c, link := l } t) (hl : l.cycle = s.link.cycle) :
    Withdrawn cause claimant s t where
  station := h.station
  link := hl ▸ h.link
  roster := h.roster
  change := h.change
  outputs := h.outputs
  trip := h.trip
  tables := h.tables
  registers := h.registers
  reports := by have r := h.reports; simpa only [abandonedReports, reportOf, hl] using r
  kept := h.kept
  now := h.now
  released := h.released

/-- LINK_MISMATCH is posted, and the station withdraws. -/
theorem withdrawn_mismatchWithdraw (reason : LinkMismatchReason) (foreign : Byte) (s : State) :
    Withdrawn .linkMismatch [reportOf (.linkMismatch reason foreign s.station) s.number s] s
      (mismatchWithdraw reason foreign s) := withdrawn_withdraw _ _ s

theorem resultKept_mismatchWithdraw (reason : LinkMismatchReason) (foreign : Byte) (s : State) :
    resultKept s (mismatchWithdraw reason foreign s) :=
  resultKept_withdraw .linkMismatch (postSelf (.linkMismatch reason foreign s.station) s)

/-- Without a withdrawal in the tick there is no claim to discard. -/
theorem discardedClaim_none {s : State} (h : s.now.left = none) (claim : State → Option ReportBody) :
    discardedClaim claim s = s := by
  unfold discardedClaim; rw [h]

/-- A claim that the state before the withdrawal makes leaves its report. -/
theorem discardedClaim_some {s : State} {b : Leaving} {claim : State → Option ReportBody} {body : ReportBody}
    (h : s.now.left = some b) (hc : claim (beforeLeaving b s) = some body) : discardedClaim claim s = postSelf body s := by
  unfold discardedClaim; rw [h]; dsimp only; rw [hc]

end Sys2Proof.Machine
end

section
/-! The own mark (O38), and marks too late or too often too early (O22). -/

namespace Sys2Proof.Machine

/-- Settles O38: each of the four commands is one update of the link. -/
theorem ownMarkBeginsDefersAndEnds : Obligations.OwnMarkBeginsDefersAndEnds := by
  intro s hp
  refine ⟨fun hl hq => ⟨⟨_, exec_timerReachesL false hp, ?_⟩, _, exec_timerReachesL true hp, ?_⟩,
    fun hl hd => ⟨_, exec_deferredMarkStart hp, ?_⟩, fun hm => ⟨_, exec_markDriveEnd hp, ?_⟩⟩
  · have e : timerStep false s = beginMark { s with link := { s.link with timer := max s.link.timer (cycleLength s) } } := by
      unfold timerStep; rw [if_pos ⟨hl, hq⟩]; rfl
    rw [e]; exact ⟨rfl, by simp [ltxDominant, beginMark, hp], rfl⟩
  · unfold timerStep; rw [if_pos ⟨hl, hq⟩]; rfl
  · have e : deferredStep s = beginMark s := if_pos ⟨hl, hd⟩
    rw [e]; exact ⟨by simp [ltxDominant, beginMark, hp], rfl⟩
  · have e : markEndStep s = noteLevel { s with link := { s.link with
        mark := .quiet, bits := { s.link.bits with driven := 0 } } } := if_pos hm
    rw [e]
    exact ⟨fun hs => by simp [noteLevel, lrxDominant, ltxDominant, hs], rfl, rfl⟩

/-- A third short interval withdraws the station before the other stages of the mark (R10, R11). -/
theorem runStep_third_short {s : State} {start : Nat} (hl : onLink s = true) (ht : tailStart s ≤ start)
    (hs : start < shortLimit s) (hn : 2 ≤ s.link.shorts) :
    runStep start s = mismatchWithdraw .shortInterval 0 { s with
      carrier := { s.carrier with setThisTick := false }, link := { s.link with shorts := s.link.shorts + 1 } } := by
  have e : shortsAfter s start = s.link.shorts + 1 := if_pos hs
  unfold runStep linkMark
  rw [if_neg (not_offline_of_onLink hl), runKind_onLink hl, if_pos ht]
  simp only [hl, e, if_true]
  exact if_pos (by omega)

/-- Settles O22: the withdrawals by `mismatchWithdraw`, the discarded claims by the state before the withdrawal. -/
theorem badMarkTimingWithdraws : Obligations.BadMarkTimingWithdraws := by
  refine ⟨fun s hp => ⟨?_, ?_, ?_, ?_⟩, fun b s hp ho hb => ⟨?_, ?_⟩⟩
  · intro h
    have hr : timerRuns s = true := (timerRuns_iff s).2 h
    have ho : s.station ≠ .offline := by
      rcases h with h | h
      · exact not_offline_of_onLink h
      · simp [h.1]
    refine ⟨_, exec_markTimeout hp, ?_⟩
    have e : timeoutStep s = mismatchWithdraw .markTimeout 0 s := by
      unfold timeoutStep; rw [if_neg ho, if_pos hr]
    rw [e]; exact ⟨withdrawn_mismatchWithdraw _ _ s, resultKept_mismatchWithdraw _ _ s⟩
  · intro hs hk
    rw [exec_markTimeout hp]; simp [timeoutStep, timerRuns, onLink, hs, hk]
  · intro ho hn
    rw [exec_markTimeout hp]; unfold timeoutStep; rw [if_pos ho, discardedClaim_none hn]
  · intro start hl ht hs hn
    refine ⟨_, exec_markAccepted start hp, ?_⟩
    rw [runStep_third_short hl ht hs hn]
    have w := withdrawn_mismatchWithdraw .shortInterval 0 { s with
      carrier := { s.carrier with setThisTick := false }, link := { s.link with shorts := s.link.shorts + 1 } }
    exact ⟨w.of_link rfl, resultKept_mismatchWithdraw ..⟩
  · intro h
    have hc : timeoutClaim (beforeLeaving b s) = some (.linkMismatch .markTimeout 0 .offline) := by
      refine if_pos ((timerRuns_iff _).2 ?_)
      rcases h with h | h
      · exact .inl ((onLink_iff _).2 h)
      · exact .inr h
    rw [exec_markTimeout hp]; unfold timeoutStep; rw [if_pos ho, discardedClaim_some hb hc]
  · intro start hk ht hs hn
    have hl : onLink (beforeLeaving b s) = true := (onLink_iff _).2 hk
    have hc : markClaim start (beforeLeaving b s) = some (.linkMismatch .shortInterval 0 .offline) := by
      have e : shortsAfter (beforeLeaving b s) start = b.link.shorts + 1 := if_pos hs
      unfold markClaim; rw [runKind_onLink hl, if_pos (by exact ht)]
      simp only [hl, e, if_true]; rw [if_pos (by omega)]; rfl
    rw [exec_markAccepted start hp]; unfold runStep; rw [if_pos ho, discardedClaim_some hb hc]

end Sys2Proof.Machine
end

section
/-! The receiver and the frame a sender puts on the link (O51). -/

namespace Sys2Proof.Machine

/-! ## Byte by byte -/

/-- Byte 0 of a frame gives the length that the frame has (R3, R20). -/
theorem frameLength_frameByte0 (f : Frame) : frameLength (frameByte0 f) = some (encodeFrame f).length := by
  obtain ⟨-, -, hp, hv⟩ := byte0_fields f
  unfold frameLength; rw [hp, hv]
  cases h : f.part <;> simp [encodeFrame, basePart, optionalPart, isProposal, isVote, h]

/-- A byte that leaves the frame incomplete awaits the next one (R3). -/
theorem byteDone_short {b : Byte} {bytes : List Byte} {n : Nat} (h : frameLength b = some n) (hn : bytes.length + 1 < n) :
    byteDone (b :: bytes) = (.gap 0, .nothing) := by
  unfold byteDone; simp only [h]; rw [if_neg (by simp; omega)]

/-- The byte that brings the frame to its length completes it (R3). -/
theorem byteDone_last {b : Byte} {bytes : List Byte} {n : Nat} (h : frameLength b = some n) (hn : bytes.length + 1 = n) :
    byteDone (b :: bytes) = (.done, .frame) := by
  unfold byteDone; simp only [h]; rw [if_pos (by simp; omega)]

/-- The receiver over the bytes that are left of a frame, after byte 0 and others. -/
theorem receiveBits_rest {b : Byte} (rest bytes : List Byte) (offset : Nat) (hr : rest ≠ [])
    (h : frameLength b = some (bytes.length + 1 + rest.length)) :
    receiveBits (rest.flatMap byteBits) false offset (.gap 0) (b :: bytes) .nothing =
      (.done, b :: (bytes ++ rest), .frame) := by
  induction rest generalizing bytes offset with
  | nil => exact absurd rfl hr
  | cons c rest ih =>
    rw [List.flatMap_cons, receiveBits_next, List.cons_append]
    cases rest with
    | nil =>
      rw [byteDone_last h (by simp)]; simp [receiveBits]
    | cons d rest =>
      rw [byteDone_short h (by simp)]
      have e := ih (bytes ++ [c]) (offset + 10) (by simp) (by rw [h]; simp; omega)
      simpa using e

/-- Settles O51: byte 0 gives the length, and the receiver goes on byte by byte until it is reached. -/
theorem receiverAssemblesSentFrame : Obligations.ReceiverAssemblesSentFrame := by
  intro f
  obtain ⟨rest, he⟩ : ∃ rest, encodeFrame f = frameByte0 f :: rest := ⟨_, rfl⟩
  have hl := frameLength_frameByte0 f
  have hn : 9 ≤ (encodeFrame f).length := by simp [encodeFrame, basePart]
  rw [he] at hl hn ⊢
  simp only [List.length_cons] at hl hn
  rw [List.flatMap_cons, receiveBits_first, byteDone_short (bytes := []) hl (by simp; omega)]
  have hr : rest ≠ [] := by rintro rfl; simp at hn
  simpa using receiveBits_rest rest [] 18 hr (by rw [hl]; simp; omega)

end Sys2Proof.Machine
end

section
/-! The own window: the frame that is built at its start (O53). -/

namespace Sys2Proof.Machine

/-! ## First transmission (R23, R50) -/

/-- With no PENDING proposal in a group there is no first transmission. -/
theorem firstTransmission_idle {s : State} (h : ¬(inGroup s = true ∧ s.change.slot.state = .pending)) :
    firstTransmission s = s := by
  unfold firstTransmission; exact if_neg fun q => h ⟨q.2, q.1⟩

/-- The slot of a PENDING proposal as its first transmission opens it, before the tally is judged. -/
def openedSlot (s : State) : Slot :=
  { s.change.slot with
    state := .opened, sequence := some s.change.sequence
    effective := s.link.cycle + BitVec.ofNat 16 s.tables.link.lead }

/-- A first transmission: the slot opened and its tally judged, the counter advanced, CHANGE_OPENED posted. -/
theorem firstTransmission_pending {s : State} (hg : inGroup s = true) (hp : s.change.slot.state = .pending) :
    firstTransmission s = { s with
      change := { s.change with sequence := s.change.sequence + 1, slot := judgeTally (openedSlot s) }
      host := { s.host with reports := arrive s.host.reports (reportOf (.changeOpened
        ((openedSlot s).effective - s.link.cycle).toNat s.change.sequence false s.change.slot.automatic none) s.number s) } } := by
  unfold firstTransmission; rw [if_pos ⟨hp, hg⟩]; rfl

/-- A judged tally changes the state alone. -/
theorem judgeTally_eq (c : Slot) : judgeTally c = { c with state := (judgeTally c).state } := by
  unfold judgeTally; split <;> rfl

theorem judgeTally_opened {c : Slot} (h : c.state = .opened) :
    (judgeTally c).state = if tallyComplete c = true then .agreed else .opened := by
  unfold judgeTally; by_cases ht : tallyComplete c = true <;> simp [h, ht]

theorem openedOrAgreed_judgeTally {c : Slot} (h : c.state = .opened) :
    (judgeTally c).state = .opened ∨ (judgeTally c).state = .agreed := by
  rw [judgeTally_opened h]; split <;> simp

/-! ## The optional part of the own frame (R23, R25) -/

theorem ownPart_local {s : State} {q : SequenceNo} (hg : inGroup s = true)
    (ho : s.change.slot.state = .opened ∨ s.change.slot.state = .agreed) (hr : s.change.slot.remote = false)
    (hq : s.change.slot.sequence = some q) :
    ownPart s = .proposal
      { sequence := q, newProfile := s.change.slot.newProfile, newSet := s.change.slot.newSet,
        electorate := s.change.slot.electorate, effective := s.change.slot.effective } := by
  unfold ownPart; dsimp only; rw [if_pos ⟨hg, ho⟩, hr, hq]; rfl

theorem ownPart_vote {s : State} {q : SequenceNo} {v : Verdict} (hg : inGroup s = true)
    (ho : s.change.slot.state = .opened ∨ s.change.slot.state = .agreed) (hr : s.change.slot.remote = true)
    (hm : member s.number s.change.slot.electorate = true) (hq : s.change.slot.sequence = some q)
    (hv : s.change.slot.verdict = some v) :
    ownPart s = .vote { proposer := s.change.slot.proposer, sequence := q, verdict := v } := by
  unfold ownPart; dsimp only; rw [if_pos ⟨hg, ho⟩, hr, hv, hm, hq]; rfl

/-- Outside a group, with no change on the link, or with a remote one that the station does not vote on, the frame is a base
frame. -/
theorem ownPart_base {s : State} (h : inGroup s = true →
    s.change.slot.state = .opened ∨ s.change.slot.state = .agreed → s.change.slot.remote = true ∧
      ¬(s.change.slot.verdict ≠ none ∧ member s.number s.change.slot.electorate = true)) :
    ownPart s = .base := by
  unfold ownPart; dsimp only; split
  · rename_i hh
    obtain ⟨hr, hv⟩ := h hh.1 hh.2
    rw [if_pos hr]; split
    · rfl
    · rename_i v e; rw [if_neg fun hm => hv ⟨by simp [e], hm⟩]
  · rfl

/-- The first transmission of a local proposal carries it, with the sequence taken and E set (R23, R24, R50). -/
theorem ownPart_firstTransmission {s : State} (hg : inGroup s = true) (hp : s.change.slot.state = .pending)
    (hr : s.change.slot.remote = false) :
    ownPart (firstTransmission s) = .proposal
      { sequence := s.change.sequence, newProfile := s.change.slot.newProfile, newSet := s.change.slot.newSet,
        electorate := s.change.slot.electorate, effective := (openedSlot s).effective } := by
  have hj := judgeTally_eq (openedSlot s)
  rw [firstTransmission_pending hg hp]
  refine (ownPart_local (q := s.change.sequence) ?_ ?_ ?_ ?_).trans ?_
  · exact hg
  · exact openedOrAgreed_judgeTally rfl
  · rw [hj]; exact hr
  · rw [hj]; rfl
  · dsimp only; rw [hj]; rfl

/-! ## The frame in the buffer (R12, R22, R26) -/

/-- What the own frame and its transmission read of the station is left by a first transmission, but for the slot. -/
structure SendsAs (s u : State) : Prop where
  number : u.number = s.number
  station : u.station = s.station
  link : u.link = s.link
  tables : u.tables = s.tables
  first : u.trip.first = s.trip.first
  view : u.change.view = s.change.view
  profile : u.change.profile = s.change.profile

theorem sendsAs_firstTransmission (s : State) : SendsAs s (firstTransmission s) := by
  by_cases h : inGroup s = true ∧ s.change.slot.state = .pending
  · rw [firstTransmission_pending h.1 h.2]; constructor <;> rfl
  · rw [firstTransmission_idle h]; constructor <;> rfl

/-- Settles O53: the frame is built from the state that a first transmission leaves. -/
theorem ownWindowBuildsTheFrame : Obligations.OwnWindowBuildsTheFrame := by
  intro s hp hl
  have k := sendsAs_firstTransmission s
  refine ⟨ownWindow s, ?_, rfl, k.number, congrArg (·.cycle) k.link, congrArg (·.link.group) k.tables,
    congrArg (·.link.linkCode) k.tables, k.view, k.profile, ?_, ?_, ?_, ?_, ?_, ?_⟩
  · rw [exec_ownWindowStart hp, if_pos hl]
  · unfold ownWindow buildFrame windowStart; rw [k.number, k.link]
  · have e : (ownFrame (ownWindow s)).state = ownAdvState (firstTransmission s) := rfl
    rw [e]; unfold ownAdvState; rw [k.station]; cases s.station <;> rfl
  · intro ht; exact if_neg (by unfold ownWindow buildFrame; rw [k.station]; exact ht)
  · intro ht cause hc
    have e : (ownFrame (ownWindow s)).tripClass = tripClassOf (some cause) := by
      refine (if_pos (k.station.trans ht)).trans ?_
      exact congrArg tripClassOf (k.first.trans hc)
    rw [e]; cases cause <;> rfl
  · intro hn
    have e : ownWindow s = buildFrame s := by unfold ownWindow; rw [firstTransmission_idle hn]
    rw [e]
    have onAir : inGroup s = true → s.change.slot.state ≠ .vacant →
        s.change.slot.state = .opened ∨ s.change.slot.state = .agreed := by
      intro hg hv; cases h : s.change.slot.state <;> simp_all
    refine ⟨rfl, ?_, ?_, ?_⟩
    · rintro q ⟨hg, hv⟩ hr hq
      exact ownPart_local hg (onAir hg hv) hr hq
    · rintro q verdict ⟨⟨hg, hv⟩, hr, -, hm⟩ hq hd
      exact ownPart_vote hg (onAir hg hv) hr hm hq hd
    · intro h
      refine ownPart_base fun hg ho => ?_
      have hv : s.change.slot.state ≠ .vacant := by
        have ho : s.change.slot.state = .opened ∨ s.change.slot.state = .agreed := ho
        rcases ho with h | h <;> simp [h]
      rcases h with h | ⟨hr, h⟩
      · exact absurd ⟨hg, hv⟩ h
      · exact ⟨hr, fun q => h ⟨⟨hg, hv⟩, hr, q⟩⟩
  · intro hg hpend
    have e : ownWindow s = buildFrame (firstTransmission s) := rfl
    rw [e, firstTransmission_pending hg hpend]
    have hj := judgeTally_eq (openedSlot s)
    have hst := judgeTally_opened (c := openedSlot s) rfl
    have hc := tallyComplete_iff (openedSlot s)
    refine ⟨?_, ?_, ?_, rfl, ?_⟩
    · unfold buildFrame; dsimp only; rw [hj]; rfl
    · intro ha; exact hst.trans (if_pos (hc.2 ha))
    · intro ha; exact hst.trans (if_neg fun h => ha (hc.1 h))
    · intro hr; rw [← firstTransmission_pending hg hpend]; exact ownPart_firstTransmission hg hpend hr

end Sys2Proof.Machine
end

section
/-! The readback of the own window (O57), and errors and disturbances of a window (O58). -/

namespace Sys2Proof.Machine

/-! ## The readback (R13) -/

/-- The own window at its end: a read-back frame that has not ended counts as bad, the bookkeeping is closed, the readback is
judged. -/
theorem endWindow_own {s : State} (hl : onLink s = true) (hk : s.number.val < stationCount s) :
    endWindow s.number s = judgeReadback (closeWindow s.number (overrunReadback s)) := by
  have ht : timed s.number s = true := (timed_iff _ s).2 ⟨receiving_of_onLink hl, hk⟩
  have hs : (overrunReadback s).station = s.station := by unfold overrunReadback; split <;> rfl
  have hn : (overrunReadback s).number = s.number := by unfold overrunReadback; split <;> rfl
  have ho : onLink (closeWindow s.number (overrunReadback s)) = true := (onLink_congr hs).trans hl
  unfold endWindow; rw [if_pos ht]; simp only [hl, and_self, if_true]
  exact (if_pos hn.symm).trans (if_pos ho)

/-- What the readback is judged on: a difference or an error, or a frame that has overrun its window. -/
theorem overrunReadback_eq (s : State) : overrunReadback s = { s with link := { s.link with
    readbackBad := s.link.readbackBad || decide (s.link.rx = .waiting) } } := by
  unfold overrunReadback failReadback; split <;> simp_all

theorem judgeReadback_idle {s : State} (h : s.link.txBuffer = []) : judgeReadback s = s := by
  unfold judgeReadback; rw [h]; rfl

theorem judgeReadback_good {s : State} (h : s.link.txBuffer ≠ []) (hb : s.link.readbackBad = false) :
    judgeReadback s = { s with link := { s.link with
      readback := .good, failures := 0, txBuffer := [], bits := { s.link.bits with txBits := [], sending := false } } } := by
  unfold judgeReadback; rw [if_neg (by simpa using h), if_neg (by simp [hb])]

/-- The link after a FAILED readback. -/
def failedLink (l : Link) : Link :=
  { l with
    readback := .failed, failures := l.failures + 1, txBuffer := [], readbackBad := false
    bits := { l.bits with txBits := [], sending := false } }

theorem judgeReadback_failed {s : State} (h : s.link.txBuffer ≠ []) (hb : s.link.readbackBad = true) :
    judgeReadback s =
      if s.tables.link.missLimit ≤ s.link.failures + 1 then
        withdraw .windowConflict
          (postSelf (.windowConflict (s.link.failures + 1) s.station) { s with link := failedLink s.link })
      else { s with link := failedLink s.link } := by
  unfold judgeReadback; rw [if_neg (by simpa using h), if_pos hb]; rfl

/-- Settles O57: the end of the own window is the judgement of its readback. -/
theorem readbackStopsAndIsJudged : Obligations.ReadbackStopsAndIsJudged := by
  refine ⟨fun s hp hl hk => ?_, fun b s hp ho hb hlink hk hx hbad hm => ?_, fun s hp => ⟨fun hl hx => ?_, fun h => ?_⟩⟩
  · obtain ⟨u, hu⟩ : ∃ u, u = closeWindow s.number (overrunReadback s) := ⟨_, rfl⟩
    have hex : exec (.windowEnd s.number) s = .next (judgeReadback u) := by
      rw [exec_windowEnd _ hp, if_neg (not_offline_of_onLink hl), endWindow_own hl hk, hu]
    rw [overrunReadback_eq] at hu
    have htx : u.link.txBuffer = s.link.txBuffer := by rw [hu]; rfl
    have hf : u.link.failures = s.link.failures := by rw [hu]; rfl
    have ht : u.tables = s.tables := by rw [hu]; rfl
    have hbad : u.link.readbackBad = true ↔ s.link.readbackBad = true ∨ s.link.rx = .waiting := by
      rw [hu]; simp [closeWindow]
    dsimp only
    rw [hex, ← htx, ← hf, ← ht, ← hbad]
    refine ⟨fun hx hb => ⟨_, rfl, ?_⟩, fun hx hb hf => ⟨_, rfl, ?_⟩, fun hx hb hf => ⟨_, rfl, ?_⟩, fun hx => ⟨_, rfl, ?_⟩⟩
    · rw [judgeReadback_good hx (by simpa using hb)]
      exact ⟨rfl, rfl, rfl, by rw [hu]; rfl⟩
    · rw [judgeReadback_failed hx hb, if_neg (Nat.not_le.2 hf)]
      exact ⟨rfl, rfl, rfl, by rw [hu]; rfl⟩
    · rw [judgeReadback_failed hx hb, if_pos hf]
      have w := withdrawn_withdraw .windowConflict
        [reportOf (.windowConflict (u.link.failures + 1) s.station) s.number s]
        { s with link := { failedLink u.link with cycle := s.link.cycle } }
      rw [hu] at w ⊢
      exact w.of_link rfl
    · rw [judgeReadback_idle hx]
      exact ⟨rfl, by rw [hu]; rfl, by rw [hu]; rfl⟩
  · have hl : onLink (beforeLeaving b s) = true := (onLink_iff _).2 hlink
    have hc : windowClaim s.number (beforeLeaving b s) = some (.windowConflict (b.link.failures + 1) .offline) :=
      if_pos ⟨(timed_iff _ _).2 ⟨receiving_of_onLink hl, hk⟩, rfl, hl, hx, hbad, hm⟩
    rw [exec_windowEnd _ hp, if_pos ho, discardedClaim_some hb hc]
  · refine ⟨_, exec_readbackMismatch hp, ?_⟩
    rw [if_pos ⟨hl, hx⟩]
    exact ⟨rfl, fun hm => by simp [ltxDominant, stopSending, hm], rfl⟩
  · rw [exec_readbackMismatch hp, if_neg]
    rcases h with h | h <;> simp [h]

/-! ## Errors and disturbances of a window (R8, R13, R14, R15) -/

theorem inWindow_iff (k : StationNo) (s : State) :
    inWindow k s = true ↔ timed k s = true ∧ windowAt s s.link.timer = some k := by
  simp [inWindow]

/-- A window that the timer lies in is one of those below S. -/
theorem windowAt_lt {k : StationNo} {s : State} {t : Nat} (h : windowAt s t = some k) : k.val < stationCount s := by
  have hc : stationCount s ≤ 16 := by unfold stationCount countOf; split <;> omega
  unfold windowAt tailStart at h
  split at h
  · rename_i ht
    have hk : k = Fin.ofNat 16 ((t - 16) / 176) := by simpa using h.symm
    have hd : (t - 16) / 176 < stationCount s := by omega
    rw [hk]; simp; omega
  · cases h

theorem spoilWindow_idle {k : StationNo} {s : State}
    (h : s.link.rx ≠ .waiting ∨ windowAt s s.link.timer ≠ some k ∨ receiving s = false) : spoilWindow k s = s := by
  unfold spoilWindow; rw [if_neg]
  rintro ⟨hw, hx⟩
  obtain ⟨ht, ha⟩ := (inWindow_iff k s).1 hw
  have hr := ((timed_iff k s).1 ht).1
  rcases h with h | h | h
  · exact h hx
  · exact h ha
  · simp [h] at hr

theorem spoilWindow_open {k : StationNo} {s : State} (hr : receiving s = true)
    (hw : windowAt s s.link.timer = some k) (hx : s.link.rx = .waiting) :
    spoilWindow k s = if onLink s = true ∧ k = s.number then failReadback (closeReception .spoiled s)
      else closeReception .spoiled s := by
  unfold spoilWindow
  exact if_pos ⟨(inWindow_iff k s).2 ⟨(timed_iff k s).2 ⟨hr, windowAt_lt hw⟩, hw⟩, hx⟩

/-- Settles O58: both commands are `spoilWindow`, the disturbance on the link alone. -/
theorem disturbanceSpoilsTheWindow : Obligations.DisturbanceSpoilsTheWindow := by
  intro k s hp
  have he := exec_receptionError k hp
  have hd := exec_lineDisturbance k hp
  refine ⟨fun hl hw hx => ?_, fun hs ha hw hx => ?_, fun hs => ?_, fun h => ?_, fun start hl h16 ht hk => ?_⟩
  · rw [he, hd, if_pos hl, spoilWindow_open (receiving_of_onLink hl) hw hx]
    by_cases h : k = s.number <;> simp [h, hl, failReadback, closeReception]
  · have hr : receiving s = true := by simp [receiving, hs, ha]
    rw [he, spoilWindow_open hr hw hx, if_neg (by simp [onLink, hs])]; rfl
  · rw [hd, if_neg (by simp [onLink, hs])]
  · have e : spoilWindow k s = s := spoilWindow_idle h
    rw [he, hd, e]; simp
  · have hn : Fin.ofNat 16 ((start - 16) / 176) = k := by rw [hk]; exact Fin.ofNat_val_eq_self k
    rw [exec_markAccepted start hp, hd, if_pos hl]; unfold runStep
    rw [if_neg (not_offline_of_onLink hl), runKind_onLink hl, if_neg (by omega), if_pos h16]
    dsimp only; rw [hn]

end Sys2Proof.Machine
end

section
/-! The end of a peer's window (O56). -/

namespace Sys2Proof.Machine

/-! ## A miss (R34) -/

theorem missFrame_idle {k : StationNo} {s : State} (h : (entryOf s k).presence ≠ .present) : missFrame k s = s := by
  unfold missFrame; dsimp only; cases e : (entryOf s k).presence <;> simp_all

theorem missFrame_counts {k : StationNo} {s : State} (h : (entryOf s k).presence = .present)
    (hm : (entryOf s k).misses + 1 < s.tables.link.missLimit) :
    missFrame k s = setEntry k { entryOf s k with misses := (entryOf s k).misses + 1 } s := by
  unfold missFrame; dsimp only; rw [h]; exact if_pos hm

theorem missFrame_absent {k : StationNo} {s : State} (h : (entryOf s k).presence = .present)
    (hm : s.tables.link.missLimit ≤ (entryOf s k).misses + 1) :
    missFrame k s = post (.peerAbsent (entryOf s k).lastHeard (member k s.change.view)) k
      (setEntry k { entryOf s k with presence := .absent, misses := s.tables.link.missLimit } s) := by
  unfold missFrame; dsimp only; rw [h]; exact if_neg (Nat.not_lt.2 hm)

/-- A miss leaves the link and every other entry. -/
theorem missFrame_keeps (k : StationNo) (s : State) :
    (missFrame k s).link = s.link ∧ ∀ j : StationNo, j ≠ k → (missFrame k s).roster.entries[j] = s.roster.entries[j] := by
  have set (e : RosterEntry) (j : StationNo) (h : j ≠ k) : (s.roster.entries.set k.val e)[j] = s.roster.entries[j] :=
    (getElem_set_station _ k j e).trans (if_neg h)
  by_cases hp : (entryOf s k).presence = .present
  · rcases Nat.lt_or_ge ((entryOf s k).misses + 1) s.tables.link.missLimit with hm | hm
    · rw [missFrame_counts hp hm]; exact ⟨rfl, set _⟩
    · rw [missFrame_absent hp hm]; exact ⟨rfl, set _⟩
  · rw [missFrame_idle hp]; exact ⟨rfl, fun _ _ => rfl⟩

/-- The Roster's part of a miss, then its judgement, which is made only where the entry has become ABSENT. -/
theorem steady_takeMiss (k : StationNo) (s : State) : Steady (missFrame k s) (takeMiss k s) := by
  unfold takeMiss; dsimp only; split
  · exact steady_judgeEntry ..
  · exact .refl _

theorem takeMiss_unjudged {k : StationNo} {s : State}
    (h : (entryOf s k).presence = .present → (entryOf (missFrame k s) k).presence = .present) :
    takeMiss k s = missFrame k s := by
  unfold takeMiss; refine if_neg ?_
  simp only [isPresent, Bool.and_eq_true, beq_iff_eq, Bool.not_eq_true', beq_eq_false_iff_ne]
  rintro ⟨⟨-, hb⟩, hn⟩; exact hn (h hb)

/-- The end of another station's window: the bookkeeping, and a miss where no valid frame was handed over (R14, R34). -/
theorem endWindow_peer {k : StationNo} {s : State} (hr : receiving s = true) (hn : k ≠ s.number)
    (hk : k.val < stationCount s) :
    endWindow k s = if s.link.rx = .handedOver then closeWindow k s else takeMiss k (closeWindow k s) := by
  have hn' : ¬(k = s.number ∧ onLink s = true) := fun h => hn h.1
  have hn'' : k ≠ (closeWindow k s).number := hn
  unfold endWindow; rw [if_pos ((timed_iff k s).2 ⟨hr, hk⟩)]
  simp only [if_neg hn', if_neg hn'', bne_iff_ne, ne_eq, ite_not]

theorem getElem_setEntry (k : StationNo) (e : RosterEntry) (s : State) : (setEntry k e s).roster.entries[k] = e :=
  (getElem_set_station _ k k e).trans (if_pos rfl)

/-- Settles O56: the bookkeeping of the window, then the cases of a miss. -/
theorem windowEndAgesTheEntry : Obligations.WindowEndAgesTheEntry := by
  intro k s hp hr hn hk
  have hex := exec_windowEnd k hp
  rw [if_neg (not_offline_of_receiving hr), endWindow_peer hr hn hk] at hex
  refine ⟨_, hex, ?_⟩
  by_cases hx : s.link.rx = .handedOver
  · rw [if_pos hx]
    exact ⟨rfl, by simp only [closeWindow, windowStart]; omega, rfl, rfl, fun _ _ => rfl, fun _ => ⟨rfl, rfl⟩, fun h => absurd hx h, fun h => absurd hx h⟩
  · rw [if_neg hx]
    obtain ⟨u, hu⟩ : ∃ u, u = closeWindow k s := ⟨_, rfl⟩
    have he : entryOf u k = s.roster.entries[k] := by rw [hu]; rfl
    have hent : u.roster.entries = s.roster.entries := by rw [hu]; rfl
    have hhost : u.host = s.host := by rw [hu]; rfl
    have hM : u.tables = s.tables := by rw [hu]; rfl
    have hlink : u.link.rx = .waiting ∧ u.link.timer = 16 + 176 * (k.val + 1) ∧ u.link.rxBuffer = [] ∧
        u.link.tally = s.link.tally := by
      rw [hu]; exact ⟨rfl, by simp only [closeWindow, windowStart]; omega, rfl, rfl⟩
    obtain ⟨hl, ho⟩ := missFrame_keeps k u
    have st := steady_takeMiss k u
    rw [← hu, st.link, st.entries, hl]
    refine ⟨hlink.1, hlink.2.1, hlink.2.2.1, hlink.2.2.2, fun j hj => (ho j hj).trans (by rw [hent]), fun h => ?_,
      fun _ hpr hm => ?_, fun _ hpr hm => ?_⟩
    · have hpr : (entryOf u k).presence ≠ .present := by
        rw [he]; rcases h with h | h
        · exact absurd hx h
        · exact h
      have e : missFrame k u = u := missFrame_idle hpr
      rw [takeMiss_unjudged (fun h => absurd h hpr), e]
      exact ⟨by rw [hent], hhost⟩
    · have e := missFrame_counts (k := k) (s := u) (by rw [he]; exact hpr) (by rw [he, hM]; exact hm)
      have hj : takeMiss k u = missFrame k u := takeMiss_unjudged fun _ => by
        rw [e]; unfold entryOf; rw [getElem_setEntry]; exact (congrArg (·.presence) he).trans hpr
      rw [hj, e, getElem_setEntry, he]
      exact ⟨rfl, hhost⟩
    · have e := missFrame_absent (k := k) (s := u) (by rw [he]; exact hpr) (by rw [he, hM]; exact hm)
      obtain ⟨later, hl⟩ := st.posts
      rw [e] at hl ⊢
      refine ⟨?_, later, ?_⟩
      · rw [post_roster, getElem_setEntry, he, hM]
      · rw [hl, he, hu]; rfl

end Sys2Proof.Machine
end

section
/-! SUPPORT. A sent frame at the checks of its receiver (R14, R20, R21, R27), and all that a hand-over can do (R28, R29, R33, R38,
R41). -/

namespace Sys2Proof.Machine

/-! ## The layout read back (R20, R21) -/

/-- The fields of byte 4 of a frame. -/
theorem byte4_fields (t p : BitVec 3) (g : BitVec 2) :
    BitVec.extractLsb' (n := 8) 0 2 (t ++ p ++ g) = g ∧ BitVec.extractLsb' (n := 8) 2 3 (t ++ p ++ g) = p ∧
      BitVec.extractLsb' (n := 8) 5 3 (t ++ p ++ g) = t := by
  refine ⟨?_, ?_, ?_⟩
  · exact (extract_append_low (t ++ p) g 0 2 (by decide)).trans (extract_all g)
  · exact ((extract_append_high (t ++ p) g 2 3 (by decide)).trans (extract_append_low t p 0 3 (by decide))).trans
      (extract_all p)
  · exact ((extract_append_high (t ++ p) g 5 3 (by decide)).trans (extract_append_high t p 3 3 (by decide))).trans
      (extract_all t)

/-- The base part names the frame's fields, with any optional part. -/
theorem frameOf_basePart (f : Frame) (part : FramePart) :
    frameOf (frameByte0 f) f.linkCode (lowByte f.cycle) (highByte f.cycle) (f.tripClass ++ f.profile ++ f.group)
      (lowByte f.set) (highByte f.set) part = some { f with part := part } := by
  obtain ⟨hs, ha, -, -⟩ := byte0_fields f
  obtain ⟨hg, hp, ht⟩ := byte4_fields f.tripClass f.profile f.group
  unfold frameOf; rw [hs, ha, hg, hp, ht]; simp

/-- A frame decodes from its own bytes (R20). -/
theorem decodeFrame_encodeFrame (f : Frame) : decodeFrame (encodeFrame f) = some f := by
  obtain ⟨-, -, hp, hv⟩ := byte0_fields f
  have hb := frameOf_basePart f f.part
  cases h : f.part with
  | base =>
    rw [h] at hp hv hb
    simp only [encodeFrame, basePart, optionalPart, h, decodeFrame, List.cons_append, List.nil_append, hp, hv, isProposal,
      isVote]
    rw [hb, ← h]
  | proposal p =>
    rw [h] at hp hv hb
    simp only [encodeFrame, basePart, optionalPart, h, decodeFrame, List.cons_append, List.nil_append, hp, hv, isProposal,
      isVote, low_of_431, middle_of_431, wordOf_bytes]
    rw [hb, ← h]
  | vote v =>
    rw [h] at hp hv hb
    simp only [encodeFrame, basePart, optionalPart, h, decodeFrame, List.cons_append, List.nil_append, hp, hv, isProposal,
      isVote, low_nibble, high_nibble, verdictOf_code, stationOf_field, Option.bind_some]
    rw [hb, ← h]

/-- The check of a sent frame matches (R21). -/
theorem crcMatches_encodeFrame (f : Frame) : crcMatches (encodeFrame f) = true := by
  unfold crcMatches encodeFrame; simp

/-- The checks of R14 on a frame that is well formed, in its sender's window: its link code alone decides. -/
theorem checkFrame_encodeFrame {l : LinkTable} {f : Frame} (h : malformed l.count f = false) :
    checkFrame l f.sender (encodeFrame f) = if f.linkCode = l.linkCode then .valid f else .foreignCode f.linkCode := by
  unfold checkFrame; rw [decodeFrame_encodeFrame]; dsimp only
  rw [if_neg (by simp [crcMatches_encodeFrame, h])]

/-! ## What waits after a hand-over (R28, R139) -/

/-- Between `s` and `t` nothing new waits, or, while commands wait, one cause with this subject. -/
def MayWait (c : Cause) (x : StationNo) (s t : State) : Prop :=
  t.now.waiting = s.now.waiting ∨
    s.pending ≠ [] ∧ ∃ r : Raised, r.cause = c ∧ r.subject = x ∧ t.now.waiting = s.now.waiting ++ [.cause r]

theorem waiting_takeCause (c : Cause) (x : StationNo) (k : Option MismatchKind) (s : State) :
    (takeCause c x k s).now.waiting = s.now.waiting := by
  have add : (addCause c x k s).now.waiting = s.now.waiting := by
    unfold addCause endClearOnFault; dsimp only
    repeat' split
    all_goals rfl
  rcases takeCause_cases c x k s with e | e | ⟨-, e⟩ | ⟨-, e⟩ <;> rw [e]
  · rfl
  · rw [tripEntry_eq]
  · exact add

theorem mayWait_raiseCause (c : Cause) (x : StationNo) (k : Option MismatchKind) (s : State) :
    MayWait c x s (raiseCause c x k s) := by
  rcases raiseCause_cases c x k s with e | ⟨hp, e | e⟩ <;> rw [e]
  · exact .inl (waiting_takeCause ..)
  · exact .inl (waiting_takeCause ..)
  · exact .inr ⟨hp, ⟨c, x, k⟩, rfl, rfl, rfl⟩

theorem now_recheck (s : State) : (recheck s).now = s.now := by rw [(recheck_spec s).1]

theorem now_takeNotice (x : StationNo) (why : NoticeCause) (loss : Bool) (s : State) :
    (takeNotice x why loss s).now = s.now := by
  unfold takeNotice closeAndRecheck; dsimp only
  repeat' split
  all_goals first | rfl | exact now_recheck _

theorem mayWait_deliverNotice (x : StationNo) (why : NoticeCause) (s : State) :
    MayWait .peerLoss x s (deliverNotice x why true s) := by
  have trip (u : State) (hu : u.now.waiting = s.now.waiting) (hp : u.pending = s.pending) :
      MayWait .peerLoss x s (raiseCause .peerLoss x none u) := by
    have h := mayWait_raiseCause .peerLoss x none u
    unfold MayWait at h ⊢; rwa [hu, hp] at h
  have change (u : State) (h : MayWait .peerLoss x s u) : MayWait .peerLoss x s (takeNotice x why true u) := by
    unfold MayWait; rw [now_takeNotice]; exact h
  unfold deliverNotice chooseFirst; dsimp only; simp only [if_true]
  repeat' split
  · exact change _ (trip _ rfl rfl)
  · exact trip _ (congrArg (·.waiting) (now_takeNotice ..)) (steady_takeNotice ..).pending
  · exact change _ (trip _ rfl rfl)

/-- A notice without a loss raises no cause. -/
theorem waiting_deliverNotice_departed (x : StationNo) (why : NoticeCause) (s : State) :
    (deliverNotice x why false s).now.waiting = s.now.waiting := by
  unfold deliverNotice; dsimp only; simp only [Bool.false_eq_true, false_and, if_false]
  rw [now_takeNotice]

/-- The judgement of an entry lets a cause wait only where the member is lost (R38). -/
theorem mayWait_judgeEntry (k : StationNo) (before : RosterEntry) (s : State) :
    (judgeEntry k before s).now.waiting = s.now.waiting ∨
      isLost s k = true ∧ MayWait .peerLoss k s (judgeEntry k before s) := by
  unfold judgeEntry; dsimp only; split
  · cases hl : member k (judgeLost k s).roster.lost && !member k s.roster.lost with
    | false => exact .inl (waiting_deliverNotice_departed ..)
    | true =>
      refine .inr ⟨?_, mayWait_deliverNotice k _ (judgeLost k s)⟩
      by_contra h
      simp [judgeLost_roster, h] at hl
  · exact .inl rfl

/-- The mismatch judgement lets a cause wait only where the frame meets a mismatch (R41). -/
theorem mayWait_judgeMismatch (f : Frame) (s : State) :
    (judgeMismatch f s).now.waiting = s.now.waiting ∨
      mismatchOf s f ≠ none ∧ MayWait .mismatch f.sender s (judgeMismatch f s) := by
  unfold judgeMismatch; split
  · exact .inl rfl
  · split
    · exact .inl rfl
    · rename_i kind h _
      exact .inr ⟨by simp [h], mayWait_raiseCause .mismatch f.sender (some kind)
        { s with roster := { s.roster with mismatch := true } }⟩

/-- A frame of the own group that advertises RUNNING raises no loss of its sender, and any other raises no mismatch (R38, R41). -/
theorem mismatchOf_none_of_lost {s u : State} {f : Frame} (he : entryOf s f.sender = entryFrom f)
    (hl : isLost s f.sender = true) (ht : u.tables = s.tables) : mismatchOf u f = none := by
  unfold mismatchOf; rw [ht]; refine if_neg ?_
  rintro ⟨-, hg, hr⟩
  simp [isLost, he, entryFrom, lostEntry, hg, hr] at hl

/-- What waits after the judgements of a frame: nothing new, or one cause whose subject is the sender (R28, R41). -/
theorem waiting_judged {f : Frame} {before : RosterEntry} {s : State} (he : entryOf s f.sender = entryFrom f) :
    let t := judgeMismatch f (judgeEntry f.sender before s)
    t.now.waiting = s.now.waiting ∨ MayWait .peerLoss f.sender s t ∨ MayWait .mismatch f.sender s t := by
  have st := steady_judgeEntry f.sender before s
  dsimp only
  rcases mayWait_judgeEntry f.sender before s with h1 | ⟨hl, h1⟩ <;>
    rcases mayWait_judgeMismatch f (judgeEntry f.sender before s) with h2 | ⟨hm, h2⟩
  · exact .inl (h2.trans h1)
  · refine .inr (.inr ?_)
    unfold MayWait at h2 ⊢; rwa [h1, st.pending] at h2
  · refine .inr (.inl ?_)
    unfold MayWait at h1 ⊢; rwa [h2]
  · exact absurd (mismatchOf_none_of_lost he hl st.tables) hm

/-! ## The content of a frame (R28, R29) -/

/-- The pair of a RUNNING sender of the own group joins the refresh collection (R29). -/
def collected (f : Frame) (s : State) : List (StationSet × ProfileNo) :=
  if f.group = s.tables.link.group ∧ f.state = .running then s.change.collection ++ [(f.set, f.profile)]
  else s.change.collection

/-- The Change Unit takes the pair into the collection, and the optional part does what Steady names; nothing comes to wait. -/
theorem steady_takeContent (f : Frame) (s : State) :
    Steady { s with change := { s.change with collection := collected f s } } (takeContent f s) ∧
      (takeContent f s).now = s.now := by
  have part : ∀ u : State, Steady u (if inGroup u then
      match f.part with
      | .base => u
      | .proposal p => takeProposal f p u
      | .vote v => takeVote f v u
    else u) ∧ (if inGroup u then
      match f.part with
      | .base => u
      | .proposal p => takeProposal f p u
      | .vote v => takeVote f v u
    else u).now = u.now := by
    intro u; split
    · split
      · exact ⟨.refl u, rfl⟩
      · refine ⟨steady_takeProposal .., ?_⟩
        unfold takeProposal; dsimp only
        repeat' split
        all_goals rfl
      · refine ⟨steady_takeVote .., ?_⟩
        unfold takeVote closeAndRecheck; dsimp only
        repeat' split
        all_goals first | rfl | exact now_recheck _
    · exact ⟨.refl u, rfl⟩
  have e : ({ s with change := { s.change with collection := collected f s } } : State) =
      if f.group = s.tables.link.group ∧ f.state = .running then
        { s with change := { s.change with collection := s.change.collection ++ [(f.set, f.profile)] } }
      else s := by unfold collected; split <;> rfl
  rw [e]; unfold takeContent; dsimp only
  by_cases hg : f.group = s.tables.link.group <;> by_cases hr : f.state = .running <;> simp only [hg, hr, if_true, if_false,
    and_true, and_false]
  · exact part _
  · exact part _
  · exact .refl s
  · exact .refl s

end Sys2Proof.Machine
end

section
/-! Frames: on the link (O54) and in LISTENING (O55). -/

namespace Sys2Proof.Machine

/-! ## Reception of a frame (R14, R16) -/

/-- A frame may complete in window `k`: the window is received and timed, and nothing has completed in it. -/
theorem completeFrame_open {k : StationNo} {s : State} (bytes : List Byte) (hr : receiving s = true)
    (hk : k.val < stationCount s) (hx : s.link.rx = .waiting) :
    completeFrame k bytes s = if onLink s then linkFrame k bytes s else listenFrame k bytes s := by
  unfold completeFrame; rw [if_pos ⟨(timed_iff k s).2 ⟨hr, hk⟩, hx⟩]

/-- A frame in a window that is not received, or after the end of a frame, is nothing. -/
theorem completeFrame_idle {k : StationNo} {s : State} (bytes : List Byte)
    (h : s.link.rx ≠ .waiting ∨ receiving s = false ∨ stationCount s ≤ k.val) : completeFrame k bytes s = s := by
  unfold completeFrame; refine if_neg ?_
  rintro ⟨ht, hx⟩
  obtain ⟨hr, hk⟩ := (timed_iff k s).1 ht
  rcases h with h | h | h
  · exact h hx
  · simp [h] at hr
  · omega

theorem linkFrame_invalid {k : StationNo} {bytes : List Byte} {s : State} (hn : k ≠ s.number)
    (h : ∀ f, checkFrame s.tables.link k bytes ≠ .valid f) : linkFrame k bytes s = closeReception .spoiled s := by
  unfold linkFrame; rw [if_neg hn]
  cases e : checkFrame s.tables.link k bytes with
  | valid f => exact absurd e (h f)
  | foreignCode _ | invalid => rfl

/-- The read-back frame is good where its bytes are those sent and no check fails (R13). -/
theorem readBack_good {bytes : List Byte} {s : State} (hb : bytes = s.link.txBuffer)
    (h : ∃ f, checkFrame s.tables.link s.number bytes = .valid f) : readBack bytes s = s := by
  obtain ⟨f, e⟩ := h
  unfold readBack; rw [e]; exact if_pos hb

theorem readBack_bad {bytes : List Byte} {s : State}
    (h : ¬(bytes = s.link.txBuffer ∧ ∃ f, checkFrame s.tables.link s.number bytes = .valid f)) :
    readBack bytes s = failReadback s := by
  unfold readBack
  cases e : checkFrame s.tables.link s.number bytes with
  | valid f => exact if_neg fun hb => h ⟨hb, f, e⟩
  | foreignCode _ | invalid => rfl

/-! ## A valid frame on the link (R28) -/

/-- A frame at the Roster: the first valid frame of a sender posts PEER_PRESENT (R33). -/
theorem hearFrame_eq (k : StationNo) (f : Frame) (s : State) :
    hearFrame k f s = { s with
      roster := { s.roster with entries := s.roster.entries.set k.val (entryFrom f) }
      host := { s.host with
        reports :=
          if (entryOf s k).presence = .present then s.host.reports
          else arrive s.host.reports (reportOf (.peerPresent f.state f.group ((entryOf s k).presence == .absent)) k s) } } := by
  unfold hearFrame isPresent; dsimp only
  by_cases h : (entryOf s k).presence = .present
  · rw [if_pos (by simpa using h), if_pos h]; rfl
  · rw [if_neg (by simpa using h), if_neg h]; rfl

/-- The reports of a hand-over begin with the Roster's (R33). -/
theorem handOver_posts (k : StationNo) (f : Frame) (s : State) :
    ∃ later, (handOver k f s).host.reports = postAll later (hearFrame k f s).host.reports := by
  obtain ⟨l1, h1⟩ := (steady_judgeEntry k (entryOf s k) (hearFrame k f s)).posts
  obtain ⟨l2, h2⟩ := (steady_judgeMismatch f (judgeEntry k (entryOf s k) (hearFrame k f s))).posts
  obtain ⟨l3, h3⟩ := (steady_takeContent f (judgeMismatch f (judgeEntry k (entryOf s k) (hearFrame k f s)))).1.posts
  have h12 : (judgeMismatch f (judgeEntry k (entryOf s k) (hearFrame k f s))).host.reports =
      postAll (l1 ++ l2) (hearFrame k f s).host.reports := by rw [postAll_append, ← h1]; exact h2
  rcases handOver_eq k f s with ⟨e, -⟩ | ⟨e, -⟩ <;> rw [e]
  · exact ⟨l1 ++ l2 ++ l3, by rw [postAll_append, ← h12]; exact h3⟩
  · exact ⟨l1 ++ l2, h12⟩

/-- The content of a frame is taken at once, or waits behind the one cause that the frame has raised (R28, R139). -/
theorem handOver_content (f : Frame) (s : State) :
    let t := handOver f.sender f s
    t.now.waiting = s.now.waiting ∧ t.change.collection = collected f s ∨
      s.pending ≠ [] ∧ t.change.collection = s.change.collection ∧
        ∃ r : Raised, (r.cause = .peerLoss ∨ r.cause = .mismatch) ∧ r.subject = f.sender ∧
          t.now.waiting = s.now.waiting ++ [.cause r, .content f] := by
  obtain ⟨u, hu⟩ : ∃ u, u = hearFrame f.sender f s := ⟨_, rfl⟩
  have hu' := hu
  rw [hearFrame_eq] at hu'
  have he : entryOf u f.sender = entryFrom f := by
    rw [hu']; exact (getElem_set_station _ _ _ _).trans (if_pos rfl)
  have hw : u.now.waiting = s.now.waiting := by rw [hu']
  have hp : u.pending = s.pending := by rw [hu']
  have ht : u.tables = s.tables := by rw [hu']
  have hc : u.change.collection = s.change.collection := by rw [hu']
  have j := steady_judgeEntry f.sender (entryOf s f.sender) u
  have m := steady_judgeMismatch f (judgeEntry f.sender (entryOf s f.sender) u)
  have wait := waiting_judged (before := entryOf s f.sender) he
  have eq := handOver_eq f.sender f s
  dsimp only at wait eq ⊢
  rw [← hu] at eq
  generalize judgeMismatch f (judgeEntry f.sender (entryOf s f.sender) u) = v at m wait eq
  have vt : v.tables = s.tables := (m.tables.trans j.tables).trans ht
  have vc : v.change.collection = s.change.collection := (m.collection.trans j.collection).trans hc
  rcases eq with ⟨e, hv⟩ | ⟨e, hv⟩ <;> rw [e]
  · obtain ⟨st, hn⟩ := steady_takeContent f v
    refine .inl ⟨by rw [hn]; exact hv, st.collection.trans ?_⟩
    unfold collected; dsimp only; rw [vt, vc]
  · have one {c : Cause} (hc : c = .peerLoss ∨ c = .mismatch) (h : MayWait c f.sender u v) :
        s.pending ≠ [] ∧ ∃ r : Raised, (r.cause = .peerLoss ∨ r.cause = .mismatch) ∧ r.subject = f.sender ∧
          v.now.waiting = s.now.waiting ++ [.cause r] := by
      rcases h with h | ⟨h, r, rfl, hx, hr⟩
      · exact absurd (h.trans hw) hv
      · exact ⟨hp ▸ h, r, hc, hx, hw ▸ hr⟩
    obtain ⟨hq, r, hc, hx, hr⟩ : s.pending ≠ [] ∧ ∃ r : Raised, (r.cause = .peerLoss ∨ r.cause = .mismatch) ∧
        r.subject = f.sender ∧ v.now.waiting = s.now.waiting ++ [.cause r] := by
      rcases wait with h | h | h
      · exact absurd (h.trans hw) hv
      · exact one (.inl rfl) h
      · exact one (.inr rfl) h
    refine .inr ⟨hq, vc, r, hc, hx, ?_⟩
    simp [hr]

/-- A frame that is well formed, in its sender's window on the link with the link code: it is handed over (R14, R28). -/
theorem exec_validFrame {f : Frame} {s : State} (hp : s.pins.rstn = true) (hl : onLink s = true)
    (hn : f.sender ≠ s.number) (hk : f.sender.val < stationCount s) (hx : s.link.rx = .waiting)
    (hc : f.linkCode = s.tables.link.linkCode) (hm : malformed s.tables.link.count f = false) :
    exec (.frameReceived f.sender (encodeFrame f)) s =
      .next (handOver f.sender f (tallyFrame f (closeReception .handedOver s))) := by
  rw [exec_frameReceived _ _ hp, if_neg (not_offline_of_onLink hl), completeFrame_open _ (receiving_of_onLink hl) hk hx,
    if_pos hl]
  unfold linkFrame; rw [if_neg hn, checkFrame_encodeFrame hm, if_pos hc]

/-- Settles O54: a valid frame is the hand-over, with what waits behind it; any other ends the reception. -/
theorem frameFillsTheEntryOrLeavesNoTrace : Obligations.FrameFillsTheEntryOrLeavesNoTrace := by
  refine ⟨fun f s hp hl hn hk hx hc hm => ⟨_, exec_validFrame hp hl hn hk hx hc hm, ?_⟩,
    fun k bytes s hp => ⟨fun hl hn hk hx hv => ?_, fun hl hn hk hx => ?_, fun h ho => ?_⟩⟩
  · obtain ⟨u, hu⟩ : ∃ u, u = tallyFrame f (closeReception .handedOver s) := ⟨_, rfl⟩
    rw [← hu]
    obtain ⟨he, hlk, ht, hno, ha, -⟩ := handOver_keeps f.sender f u
    have content := handOver_content f u
    dsimp only at content
    have hent : u.roster.entries = s.roster.entries := by rw [hu]; rfl
    rw [hlk, ht, hno, ha, he, hent]
    refine ⟨(getElem_set_station ..).trans (if_pos rfl), fun k hk => (getElem_set_station ..).trans (if_neg hk),
      by rw [hu]; rfl, by rw [hu]; rfl, by rw [hu]; rfl, by rw [hu]; rfl, fun hpr => ?_, ?_⟩
    · obtain ⟨later, h⟩ := handOver_posts f.sender f u
      refine ⟨later, h.trans ?_⟩
      rw [hearFrame_eq, hu, postAll_cons]
      exact congrArg (postAll later) (if_neg hpr)
    · rw [hu] at content ⊢; exact content
  · rw [exec_frameReceived _ _ hp, if_neg (not_offline_of_onLink hl),
      completeFrame_open _ (receiving_of_onLink hl) hk hx, if_pos hl, linkFrame_invalid hn hv]
    rfl
  · have e : exec (.frameReceived k bytes) s = .next (closeReception .spoiled (readBack bytes s)) := by
      rw [exec_frameReceived _ _ hp, if_neg (not_offline_of_onLink hl),
        completeFrame_open _ (receiving_of_onLink hl) hk hx, if_pos hl]
      unfold linkFrame; rw [if_pos hn]
    subst hn
    refine ⟨fun hg => ?_, fun hg => ?_⟩
    · rw [e, readBack_good hg.1 hg.2]; rfl
    · rw [e, readBack_bad hg]; rfl
  · rw [exec_frameReceived _ _ hp, completeFrame_idle bytes h]
    split
    · rename_i hs
      rcases ho with ho | ho
      · exact absurd hs ho
      · rw [discardedClaim_none ho]
    · rfl

/-! ## A frame in LISTENING (R16, R30, R82, R85) -/

theorem exec_listenFrame {f : Frame} {s : State} (hp : s.pins.rstn = true) (hs : s.station = .listening)
    (ha : s.acq.phase = .listen) (hx : s.link.rx = .waiting) (hk : f.sender.val < stationCount s)
    (hm : malformed s.tables.link.count f = false) :
    exec (.frameReceived f.sender (encodeFrame f)) s = .next
      (if f.linkCode = s.tables.link.linkCode then
        if f.sender = s.number then withdraw .numberTaken (postSelf .numberTaken s)
        else takeNumber f (hearFrame f.sender f (closeReception .handedOver s))
      else mismatchWithdraw .foreignCode f.linkCode s) := by
  rw [exec_frameReceived _ _ hp, if_neg (by simp [hs]), completeFrame_open _ (by simp [receiving, hs, ha]) hk hx,
    if_neg (by simp [onLink, hs])]
  unfold listenFrame; rw [checkFrame_encodeFrame hm]
  by_cases hc : f.linkCode = s.tables.link.linkCode <;> simp only [hc, if_true, if_false]

/-- The taken number is the first one heard from listening cycle 2 on (R82). -/
theorem takeNumber_taken {f : Frame} {s : State} (h : 2 ≤ s.acq.listening) (hn : s.acq.taken = none) :
    takeNumber f s = { s with acq := { s.acq with taken := some f.cycle }, link := { s.link with cycle := f.cycle } } :=
  if_pos ⟨h, hn⟩

theorem takeNumber_idle {f : Frame} {s : State} (h : s.acq.listening < 2 ∨ s.acq.taken ≠ none) : takeNumber f s = s := by
  refine if_neg ?_
  rintro ⟨h2, hn⟩
  rcases h with h | h
  · omega
  · exact h hn

/-- What a taken number may change. -/
theorem takeNumber_eq (f : Frame) (s : State) : takeNumber f s = { s with
    acq := { s.acq with taken := (takeNumber f s).acq.taken }
    link := { s.link with cycle := (takeNumber f s).link.cycle } } := by
  unfold takeNumber; split <;> rfl

/-- Settles O55: the three outcomes of a well-formed frame, and the claim it makes in the tick of a withdrawal. -/
theorem listeningFrameIndications : Obligations.ListeningFrameIndications := by
  refine ⟨fun f s hp hs ha hx hk hm => ⟨fun hc hn => ?_, fun hc hn => ?_, fun hc => ?_⟩,
    fun f b s hp ho hb hs ha hx hk hm => ?_⟩
  · refine ⟨_, exec_listenFrame hp hs ha hx hk hm, ?_⟩
    rw [if_pos hc, if_neg hn]
    obtain ⟨u, hu⟩ : ∃ u, u = hearFrame f.sender f (closeReception .handedOver s) := ⟨_, rfl⟩
    rw [← hu]
    have hu' := hu.trans (hearFrame_eq _ _ _)
    have acq : u.acq = s.acq := by rw [hu']; rfl
    have entries : u.roster.entries = s.roster.entries.set f.sender.val (entryFrom f) := by rw [hu']; rfl
    have reports : u.host.reports = if s.roster.entries[f.sender].presence = .present then s.host.reports
        else arrive s.host.reports (reportOf
          (.peerPresent f.state f.group (s.roster.entries[f.sender].presence == .absent)) f.sender s) := by rw [hu']; rfl
    rw [takeNumber_eq]
    refine ⟨by rw [hu']; exact hs, by rw [hu']; rfl, by rw [hu']; rfl, by rw [hu']; rfl, ?_, fun k hk => ?_, fun hpr => ?_,
      fun hpr => ?_, fun h2 hn => ?_, fun h => ?_⟩
    · dsimp only; rw [entries]; exact (getElem_set_station ..).trans (if_pos rfl)
    · dsimp only; rw [entries]; exact (getElem_set_station ..).trans (if_neg hk)
    · have e : u.host = { s.host with reports := u.host.reports } := by rw [hu']; rfl
      dsimp only; rw [e, reports, if_pos hpr]
    · exact reports.trans (if_neg hpr)
    · rw [takeNumber_taken (by rw [acq]; exact h2) (by rw [acq]; exact hn)]
      exact ⟨rfl, rfl⟩
    · rw [takeNumber_idle (by rw [acq]; exact h)]
      exact ⟨acq, by rw [hu']; rfl⟩
  · refine ⟨_, exec_listenFrame hp hs ha hx hk hm, ?_⟩
    rw [if_pos hc, if_pos hn]
    exact withdrawn_withdraw .numberTaken [reportOf .numberTaken s.number s] s
  · refine ⟨_, exec_listenFrame hp hs ha hx hk hm, ?_⟩
    rw [if_neg hc]
    have w := withdrawn_mismatchWithdraw .foreignCode f.linkCode s
    rwa [hs] at w
  · have hl : onLink (beforeLeaving b s) = false := onLink_of_listening hs
    have ht : timed f.sender (beforeLeaving b s) = true := by
      refine (timed_iff _ _).2 ⟨?_, hk⟩
      simp [receiving, hs, ha]
    have hcheck := checkFrame_encodeFrame (l := (beforeLeaving b s).tables.link) hm
    dsimp only; rw [exec_frameReceived _ _ hp, if_pos ho]
    refine ⟨fun hc hn => ?_, fun hc => ?_⟩
    · have hv := hcheck.trans (if_pos hc)
      rw [discardedClaim_some hb]
      unfold frameClaim; rw [if_pos ⟨ht, hx, hl⟩, hv]; exact if_pos hn
    · have hf := hcheck.trans (if_neg hc)
      rw [discardedClaim_some hb]
      unfold frameClaim; rw [if_pos ⟨ht, hx, hl⟩, hf]

end Sys2Proof.Machine
end

section
/-! An accepted mark on the link (O39). -/

namespace Sys2Proof.Machine

/-! ## The agreement on a cycle number (R18) -/

theorem agreement_agrees {own : CycleNo} {tally : List CycleNo} (h : ∀ v ∈ tally, v = own) :
    agreement own tally = .agrees := by
  cases tally with
  | nil => rfl
  | cons v rest =>
    have hr : rest.all (fun w => w == v) = true := by
      simp only [List.all_eq_true, beq_iff_eq]
      intro w hw; rw [h w (by simp [hw]), h v (by simp)]
    unfold agreement; dsimp only; rw [if_pos hr, if_pos (h v (by simp))]

theorem agreement_slips {own v : CycleNo} {tally : List CycleNo} (hv : v ≠ own) (hn : tally ≠ [])
    (h : ∀ w ∈ tally, w = v) : agreement own tally = .slips v := by
  cases tally with
  | nil => exact absurd rfl hn
  | cons x rest =>
    obtain rfl : x = v := h x (by simp)
    have hr : rest.all (fun w => w == x) = true := by
      simp only [List.all_eq_true, beq_iff_eq]
      intro w hw; exact h w (by simp [hw])
    unfold agreement; dsimp only; rw [if_pos hr, if_neg hv]

theorem agreement_differs {own v w : CycleNo} {tally : List CycleNo} (hv : v ∈ tally) (hw : w ∈ tally) (h : v ≠ w) :
    agreement own tally = .differs := by
  cases tally with
  | nil => simp at hv
  | cons x rest =>
    have hr : ¬rest.all (fun y => y == x) = true := by
      simp only [List.all_eq_true, beq_iff_eq]
      intro hall
      have eq (y : CycleNo) (hy : y ∈ x :: rest) : y = x := by
        rcases List.mem_cons.1 hy with e | e
        · exact e
        · exact hall y e
      exact h ((eq v hv).trans (eq w hw).symm)
    unfold agreement; dsimp only; rw [if_neg hr]

/-- The distinct values of a tally are counted as Mathlib's `dedup` counts them. -/
theorem distinctValues_eq_dedup (tally : List CycleNo) : distinctValues tally = tally.dedup := by
  induction tally with
  | nil => rfl
  | cons v rest ih =>
    unfold distinctValues
    by_cases h : v ∈ rest
    · rw [if_pos (by simpa using h), ih, List.dedup_cons_of_mem h]
    · rw [if_neg (by simpa using h), ih, List.dedup_cons_of_notMem h]

/-- The tally agrees: the next number, and no discord. -/
theorem agreeNumber_agrees {s : State} (h : agreement s.link.cycle s.link.tally = .agrees) :
    agreeNumber s = { s with link := { s.link with cycle := s.link.cycle + 1, tally := [], discord := false } } := by
  unfold agreeNumber; dsimp only; rw [h]; rfl

/-- The tally differs in itself: the next number, the discord flag, and CYCLE_DISCORD where it was clear. -/
theorem agreeNumber_differs {s : State} (h : agreement s.link.cycle s.link.tally = .differs) :
    agreeNumber s = { s with
      link := { s.link with cycle := s.link.cycle + 1, tally := [], discord := true }
      host :=
        if s.link.discord then s.host
        else { s.host with
          reports := arrive s.host.reports
            ⟨.cycleDiscord s.link.tally.length s.link.tally.dedup.length, false, s.link.cycle + 1, s.number⟩ } } := by
  unfold agreeNumber; dsimp only; rw [h, ← distinctValues_eq_dedup]
  cases hd : s.link.discord with
  | false => exact if_neg (by simp [hd])
  | true => exact (if_pos (by exact hd)).trans (by simp [numberCycle, hd])

/-! ## The mark event keeps all but the refresh collection and what changes act on -/

/-- The refresh collection emptied. -/
def emptied (s : State) : State := { s with change := { s.change with collection := [] } }

theorem Steady.emptied {s t : State} (h : Steady s t) : Steady (emptied s) (emptied t) :=
  { h with collection := rfl }

theorem steady_changeMark (s : State) : Steady (emptied s) (changeMark s) := by
  obtain ⟨u, h, e⟩ := changeMark_spec s
  rw [e]; exact h.emptied

theorem steady_changeAfterLoad (raised : Bool) (s : State) : Steady (emptied s) (changeAfterLoad raised s) := by
  have after {v : State} (h : Steady s v) : Steady (emptied s) (changeMark v) := h.emptied.trans (steady_changeMark v)
  unfold changeAfterLoad chooseFirst; dsimp only
  repeat' split
  · exact after (steady_takeOwnCause ..)
  · exact after ((steady_free _ s).trans (steady_takeOwnCause ..))
  · exact (after (steady_free _ s)).trans (steady_raiseStarved ..)
  · exact after (steady_raiseStarved ..)

/-- The mark event with a stopped carrier is the Change Unit's alone (R102). -/
theorem markEvent_stopped {s : State} (h : s.carrier.running = false) :
    markEvent s = changeMark { s with roster := { s.roster with mismatch := false } } := by
  unfold markEvent; dsimp only; rw [if_neg (by simp [h])]

/-- The mark event with a running carrier: the re-phase, with the Change Unit's part after it or before it (R102). -/
theorem markEvent_running {s u : State} (h : s.carrier.running = true)
    (hu : u = { s with roster := { s.roster with mismatch := false }, free := s.free + 1 }) :
    markEvent s =
      if Config.firstOfTwo s.free then changeAfterLoad (markRephase u).2 (markRephase u).1
      else raiseStarved (markRephase (changeMark u)).2 (markRephase (changeMark u)).1 := by
  subst hu
  unfold markEvent chooseFirst; dsimp only; rw [if_pos h]

theorem steady_markEvent (s : State) :
    Steady (emptied { s with roster := { s.roster with mismatch := false } }) (markEvent s) := by
  cases h : s.carrier.running with
  | false => rw [markEvent_stopped h]; exact steady_changeMark _
  | true =>
    obtain ⟨u, hu⟩ : ∃ u : State, u = { s with roster := { s.roster with mismatch := false }, free := s.free + 1 } :=
      ⟨_, rfl⟩
    have hs : Steady (Machine.emptied { s with roster := { s.roster with mismatch := false } }) (Machine.emptied u) := by
      rw [hu]; exact (steady_free (s.free + 1) { s with roster := { s.roster with mismatch := false } }).emptied
    rw [markEvent_running h hu]; split
    · exact (hs.trans (steady_markRephase u).emptied).trans (steady_changeAfterLoad ..)
    · exact ((hs.trans (steady_changeMark u)).trans (steady_markRephase _)).trans (steady_raiseStarved ..)

/-- In TRIPPED the mark event only empties the collection (R61). -/
theorem changeMark_tripped {s : State} (h : s.station = .tripped) : changeMark s = emptied s := by
  have hg : ¬inGroup s = true := by simp [inGroup, h]
  have hj : ¬s.station = .joined := by simp [h]
  unfold changeMark; simp only [if_neg hg, hj, false_and, if_false]; rfl

/-! ## A run in the tail (R8, R10) -/

/-- The station as the interval watch leaves it: the short intervals counted, the set-this-tick mark over (R11, R93). -/
def watched (start : Nat) (s : State) : State :=
  { s with carrier := { s.carrier with setThisTick := false }, link := { s.link with shorts := shortsAfter s start } }

/-- A mark that is no third short interval is taken in all its stages (R10, R11). -/
theorem exec_acceptedMark {s : State} {start : Nat} (hp : s.pins.rstn = true) (hl : onLink s = true)
    (ht : tailStart s ≤ start) (hs : start < cycleLength s - cycleLength s / 64 → s.link.shorts < 2) :
    exec (.markAccepted start) s = .next (markEvent (agreeNumber (markRestart (watched start s)))) := by
  have h3 : ¬3 ≤ shortsAfter s start := by
    unfold shortsAfter; split
    · have := hs ‹_›; omega
    · omega
  rw [exec_markAccepted start hp]; unfold runStep linkMark
  rw [if_neg (not_offline_of_onLink hl), runKind_onLink hl, if_pos ht]
  simp only [hl, if_true]; exact congrArg _ (if_neg h3)

/-- Settles O39: the restart and the interval watch act on the link, the numbering has its three cases, and the mark event keeps
the link. -/
theorem markRestartsAndNumbersTheCycle : Obligations.MarkRestartsAndNumbersTheCycle := by
  intro start s hp
  refine ⟨fun hl ht hs => ⟨_, exec_acceptedMark hp hl ht hs, ?_⟩, fun hl h16 => ?_, fun ho hn => ?_⟩
  · obtain ⟨u, hu⟩ : ∃ u, u = markRestart (watched start s) := ⟨_, rfl⟩
    rw [← hu]
    have m := steady_markEvent (agreeNumber u)
    obtain ⟨a1, a2, a3, a4, -⟩ := agreeNumber_spec u
    have link : (markEvent (agreeNumber u)).link = (agreeNumber u).link := m.link
    have hcy : u.link.cycle = s.link.cycle := by rw [hu]; rfl
    have hta : u.link.tally = s.link.tally := by rw [hu]; rfl
    have hdi : u.link.discord = s.link.discord := by rw [hu]; rfl
    have hsh : u.link.shorts = shortsAfter s start := by rw [hu]; rfl
    have hho : u.host = s.host := by rw [hu]; rfl
    have hro : u.roster = s.roster := by rw [hu]; rfl
    have hno : u.number = s.number := by rw [hu]; rfl
    rw [link]
    refine ⟨by rw [a1, hu]; rfl, by rw [a1], fun h => by rw [a1]; exact hsh.trans (if_pos h),
      fun h => by rw [a1]; exact hsh.trans (if_neg h), fun hm => by rw [a1, hu]; exact if_pos hm, fun h => ?_,
      fun v hv hne h => ?_, fun v w hv hw hvw => ?_, m.mismatch, ?_, m.collection, ?_, ?_⟩
    · have e := agreeNumber_agrees (s := u) (by rw [hcy, hta]; exact agreement_agrees h)
      rw [e, hcy]; exact ⟨rfl, rfl⟩
    · have a := agreeNumber_spec u
      rw [hcy, hta, agreement_slips hv hne h] at a
      exact a.2.2.2.2
    · have e := agreeNumber_differs (s := u) (by rw [hcy, hta]; exact agreement_differs hv hw hvw)
      rw [hcy, hta, hdi, hho, hno] at e
      refine ⟨by rw [e], by rw [e], fun hd => ?_, fun hd htr hru => ?_⟩
      · obtain ⟨later, hl⟩ := m.posts
        refine ⟨later, hl.trans ?_⟩
        rw [e, hd]; rfl
      · rw [markEvent_stopped (by rw [e, hu]; exact hru), changeMark_tripped (by rw [e, hu]; exact htr), e, hd]; rfl
    · exact m.entries.trans (by rw [← hro, ← a4]; rfl)
    · exact (m.tables.trans a3).trans (by rw [hu]; rfl)
    · exact (m.number.trans a2).trans hno
  · have htl : ¬tailStart s ≤ start := by unfold tailStart; omega
    rw [exec_markAccepted start hp]; unfold runStep
    rw [if_neg (not_offline_of_onLink hl), runKind_onLink hl, if_neg htl, if_neg (by omega)]
  · rw [exec_markAccepted start hp]; unfold runStep; rw [if_pos ho, discardedClaim_none hn]

end Sys2Proof.Machine
end

section
/-! SUPPORT. What the Change Unit and the re-phase make of a mark that applies no change (R18, R61 to R63, R65, R100, R102). -/

namespace Sys2Proof.Machine

/-! ## The slot after a close (R66, R70) -/

/-- The slot that a close leaves: NONE, or the automatic DROP that the re-check builds where one is due. -/
def DroppedAs (s : State) (c : Slot) : Prop :=
  c = Slot.vacant ∨ s.station = .running ∧ (rowOf s.tables .peerLoss).action = .respace ∧ s.roster.lost ≠ 0 ∧
    c.state = .pending ∧ c.automatic = true

theorem recheck_vacated {s : State} (h : s.change.slot = Slot.vacant) :
    ∃ c, DroppedAs s c ∧ recheck s = { s with change := { s.change with slot := c } } := by
  unfold recheck; split
  · rename_i hd
    simp only [dropDue, Bool.and_eq_true, beq_iff_eq, bne_iff_ne] at hd
    obtain ⟨⟨⟨hs, hr⟩, -⟩, hl⟩ := hd
    exact ⟨dropProposal s, .inr ⟨hs, hr, hl, rfl, rfl⟩, rfl⟩
  · exact ⟨Slot.vacant, .inl rfl, by rw [← h]⟩

/-- A close posts its report and leaves such a slot. -/
theorem closeAndRecheck_eq (o : ChangeOutcome) (x : StationNo) (why : CloseReason) (s : State) :
    ∃ c, DroppedAs s c ∧ closeAndRecheck o x why s = { s with
      change := { s.change with slot := c }
      host := { s.host with
        reports := arrive s.host.reports (reportOf
          (.changeClosed o s.change.slot.sequence s.change.slot.remote s.change.slot.automatic why) x s) } } := by
  obtain ⟨c, hc, e⟩ := recheck_vacated (s := closeSlot o x why s) rfl
  exact ⟨c, hc, e⟩

/-- The slot of a close holds no change that a deadline acts on. -/
theorem DroppedAs.idle {s : State} {c : Slot} (h : DroppedAs s c) : c.state = .vacant ∨ c.state = .pending := by
  rcases h with h | ⟨-, -, -, h, -⟩
  · exact .inl (by rw [h]; rfl)
  · exact .inr h

/-! ## A slip of the cycle number (R18) -/

/-- The tally holds one number that is not the own. -/
def Slips (s : State) : Prop := ∃ v, v ≠ s.link.cycle ∧ s.link.tally ≠ [] ∧ ∀ w ∈ s.link.tally, w = v

/-- The CHANGE_CLOSED SLIPPED of the change in the slot, under the new number (R66). -/
def slippedReport (v : CycleNo) (s : State) : Report :=
  ⟨.changeClosed .slipped s.change.slot.sequence s.change.slot.remote s.change.slot.automatic .noReason, false, v + 1,
    s.change.slot.proposer⟩

/-- The reports of a slip to a number: CYCLE_SLIP with the number held before, and the close of a change that the slot held. -/
def slipReports (v : CycleNo) (s : State) : List Report :=
  ⟨.cycleSlip s.link.cycle (s.change.slot.state != .vacant), false, v + 1, s.number⟩ ::
    if s.change.slot.state = .vacant then [] else [slippedReport v s]

/-- A slip: the adopted number plus one, CYCLE_SLIP with the number held before, and the close of a change that the slot held. -/
theorem agreeNumber_slips {s : State} {v : CycleNo} (h : agreement s.link.cycle s.link.tally = .slips v) :
    ∃ c, (s.change.slot.state = .vacant → c = s.change.slot) ∧ (s.change.slot.state ≠ .vacant → DroppedAs s c) ∧
      agreeNumber s = { s with
        link := { s.link with cycle := v + 1, tally := [], discord := false }
        change := { s.change with slot := c }
        host := { s.host with
          reports := postAll (slipReports v s) s.host.reports } } := by
  obtain ⟨u, hu⟩ : ∃ u, u = postSelf (.cycleSlip s.link.cycle (s.change.slot.state != .vacant))
      { s with link := { s.link with cycle := v + 1, tally := [], discord := false } } := ⟨_, rfl⟩
  have e : agreeNumber s = if s.change.slot.state != .vacant then
      closeAndRecheck .slipped u.change.slot.proposer .noReason u else u := by
    rw [hu]; unfold agreeNumber; dsimp only; rw [h]; rfl
  by_cases hv : s.change.slot.state = .vacant
  · refine ⟨s.change.slot, fun _ => rfl, fun q => absurd hv q, ?_⟩
    rw [e, if_neg (by simp [hv]), slipReports, if_pos hv, hu]; rfl
  · obtain ⟨c, hc, ec⟩ := closeAndRecheck_eq .slipped u.change.slot.proposer .noReason u
    rw [hu] at hc
    refine ⟨c, fun q => absurd q hv, fun _ => hc, ?_⟩
    rw [e, if_pos (by simp [hv]), ec, slipReports, if_neg hv, hu]; rfl

/-- The three cases of a tally (R18). -/
theorem agreement_cases (s : State) :
    ¬Slips s ∧ (agreement s.link.cycle s.link.tally = .agrees ∨ agreement s.link.cycle s.link.tally = .differs) ∨
      Slips s ∧ ∃ v, agreement s.link.cycle s.link.tally = .slips v := by
  by_cases hs : Slips s
  · obtain ⟨v, hv, hn, hw⟩ := hs
    exact .inr ⟨⟨v, hv, hn, hw⟩, v, agreement_slips hv hn hw⟩
  · refine .inl ⟨hs, ?_⟩
    by_cases ha : ∀ v ∈ s.link.tally, v = s.link.cycle
    · exact .inl (agreement_agrees ha)
    · push Not at ha
      obtain ⟨v, hv, hne⟩ := ha
      have hd : ∃ w ∈ s.link.tally, w ≠ v := by
        by_contra hq
        push Not at hq
        exact hs ⟨v, hne, List.ne_nil_of_mem hv, hq⟩
      obtain ⟨w, hw, hwv⟩ := hd
      exact .inr (agreement_differs hv hw fun q => hwv q.symm)

/-- What the numbering of a cycle does to the station: the link, the slot and two reports at most (R18, R35). -/
theorem numbered_eq (start : Nat) (s : State) : ∃ c l, l.length ≤ 2 ∧
    numbered start s = { s with
      carrier := { s.carrier with setThisTick := false }
      link := (numbered start s).link
      roster := { s.roster with mismatch := false }
      change := { s.change with slot := c }
      host := { s.host with reports := postAll l s.host.reports } } ∧
    (Slips s → (s.change.slot.state = .vacant → c = s.change.slot) ∧ (s.change.slot.state ≠ .vacant → DroppedAs s c ∧
      ⟨.changeClosed .slipped s.change.slot.sequence s.change.slot.remote s.change.slot.automatic .noReason, false,
        (numbered start s).link.cycle, s.change.slot.proposer⟩ ∈ l)) ∧
    (¬Slips s → c = s.change.slot ∧ (numbered start s).link.cycle = s.link.cycle + 1) := by
  obtain ⟨w, hw⟩ : ∃ w, w = markRestart (watched start s) := ⟨_, rfl⟩
  have hn : numbered start s =
      { agreeNumber w with roster := { (agreeNumber w).roster with mismatch := false } } := by rw [hw]; rfl
  have hc := agreement_cases w
  have hS : Slips w ↔ Slips s := by rw [hw]; rfl
  rw [hS] at hc
  rcases hc with ⟨hs, ha | hd⟩ | ⟨hs, v, ha⟩
  · have e := agreeNumber_agrees ha
    refine ⟨s.change.slot, [], by simp, ?_, fun q => absurd q hs, fun _ => ⟨rfl, ?_⟩⟩
    · rw [hn, e, hw]; rfl
    · rw [hn, e, hw]; rfl
  · have e := agreeNumber_differs hd
    cases hdi : w.link.discord with
    | true =>
      rw [hdi] at e
      refine ⟨s.change.slot, [], by simp, ?_, fun q => absurd q hs, fun _ => ⟨rfl, ?_⟩⟩
      · rw [hn, e, hw]; rfl
      · rw [hn, e, hw]; rfl
    | false =>
      rw [hdi] at e
      refine ⟨s.change.slot, [⟨.cycleDiscord s.link.tally.length s.link.tally.dedup.length, false, s.link.cycle + 1, s.number⟩],
        by simp, ?_, fun q => absurd q hs, fun _ => ⟨rfl, ?_⟩⟩
      · rw [hn, e, hw]; rfl
      · rw [hn, e, hw]; rfl
  · obtain ⟨c, h1, h2, e⟩ := agreeNumber_slips ha
    have hch : w.change = s.change := by rw [hw]; rfl
    rw [hch] at h1 h2 e
    have hcy : (numbered start s).link.cycle = v + 1 := by rw [hn, e]
    have hd : DroppedAs w c ↔ DroppedAs s c := by rw [hw]; rfl
    have hl : (slipReports v s).length ≤ 2 := by unfold slipReports; split <;> simp
    refine ⟨c, slipReports v s, hl, ?_, fun _ => ⟨h1, fun hv => ⟨hd.1 (h2 hv), ?_⟩⟩, fun q => absurd hs q⟩
    · rw [hn, e, hw]; rfl
    · rw [hcy, slipReports, if_neg hv]; simp [slippedReport]

/-! ## The deadline of an OPEN change (R62, R63) -/

/-- The slot holds an OPEN change at its deadline. -/
def Falling (s : State) : Prop := s.change.slot.state = .opened ∧ s.change.slot.effective = s.link.cycle

/-- The slot holds no AGREED change at its effective cycle, which the mark would apply. -/
def Unapplied (s : State) : Prop := ¬(s.change.slot.state = .agreed ∧ s.change.slot.effective = s.link.cycle)

/-- The report of the close at a deadline: LAPSED naming the proposer, or REFUSED naming the station with its own reason. -/
def deadlineReport (s : State) : Report :=
  let c := s.change.slot
  match c.verdict with
  | none | some .accept => reportOf (.changeClosed .lapsed c.sequence c.remote c.automatic .noReason) c.proposer s
  | some reason => reportOf (.changeClosed .refused c.sequence c.remote c.automatic (.refusal reason)) s.number s

theorem deadlineReport_lapsed {s : State} (h : s.change.slot.verdict = none ∨ s.change.slot.verdict = some .accept) :
    deadlineReport s = reportOf (.changeClosed .lapsed s.change.slot.sequence s.change.slot.remote
      s.change.slot.automatic .noReason) s.change.slot.proposer s := by
  unfold deadlineReport; rcases h with h | h <;> simp only [h]

theorem deadlineReport_refused {s : State} {reason : Verdict} (hr : reason ≠ .accept)
    (h : s.change.slot.verdict = some reason) :
    deadlineReport s = reportOf (.changeClosed .refused s.change.slot.sequence s.change.slot.remote
      s.change.slot.automatic (.refusal reason)) s.number s := by
  unfold deadlineReport; simp only [h]

theorem deadline_falling {s : State} (h : Falling s) : ∃ c, DroppedAs s c ∧ deadline s = { s with
    change := { s.change with slot := c }
    host := { s.host with reports := arrive s.host.reports (deadlineReport s) } } := by
  have e : deadline s = match s.change.slot.verdict with
      | none | some .accept => closeAndRecheck .lapsed s.change.slot.proposer .noReason s
      | some reason => closeAndRecheck .refused s.number (.refusal reason) s := by
    unfold deadline; dsimp only; rw [if_pos h.2, h.1] <;> rfl
  rcases hv : s.change.slot.verdict with - | reason
  · rw [hv] at e; rw [e, deadlineReport_lapsed (.inl hv)]; exact closeAndRecheck_eq ..
  · by_cases hr : reason = .accept
    · subst hr
      rw [hv] at e; rw [e, deadlineReport_lapsed (.inr hv)]; exact closeAndRecheck_eq ..
    · have e' : deadline s = closeAndRecheck .refused s.number (.refusal reason) s := by
        rw [hv] at e; rw [e]; cases reason <;> first | exact absurd rfl hr | rfl
      rw [e', deadlineReport_refused hr hv]; exact closeAndRecheck_eq ..

theorem deadline_idle {s : State} (hn : Unapplied s) (hf : ¬Falling s) : deadline s = s := by
  unfold deadline; dsimp only; split
  · rename_i he
    split
    · rfl
    · rfl
    · rename_i ha; exact absurd ⟨ha, he⟩ hn
    · rename_i ho; exact absurd ⟨ho, he⟩ hf
  · rfl

/-- In a group, with a change in the slot or in RUNNING, the mark event is the deadline with the collection emptied. -/
theorem changeMark_deadline {s : State} (hg : inGroup s = true)
    (h : s.change.slot.state ≠ .vacant ∨ (deadline s).station ≠ .joined) : changeMark s = emptied (deadline s) := by
  have hr : ¬((deadline s).station = .joined ∧ (s.change.slot.state == .vacant) = true) := by
    rintro ⟨hj, hv⟩
    rcases h with h | h
    · exact h (by simpa using hv)
    · exact h hj
  unfold changeMark; simp only [if_pos hg, if_neg hr]; rfl

/-- What a deadline makes of the slot, with its report. -/
structure ClosedAs (s : State) (c : Slot) (l : List Report) : Prop where
  falling : Falling s → DroppedAs s c ∧ deadlineReport s ∈ l
  idle : ¬Falling s → c = s.change.slot

/-- The Change Unit's mark event in RUNNING that applies nothing: the slot, the collection and one report at most. -/
theorem changeMark_unapplied {s : State} (hs : s.station = .running) (hn : Unapplied s) :
    ∃ c l, l.length ≤ 1 ∧ ClosedAs s c l ∧ changeMark s = { s with
      change := { s.change with slot := c, collection := [] }
      host := { s.host with reports := postAll l s.host.reports } } := by
  have hg : inGroup s = true := by simp [inGroup, hs]
  by_cases hf : Falling s
  · obtain ⟨c, hc, e⟩ := deadline_falling hf
    have hj : (deadline s).station ≠ .joined := by rw [e]; simp [hs]
    refine ⟨c, [deadlineReport s], by simp, ⟨fun _ => ⟨hc, by simp⟩, fun q => absurd hf q⟩, ?_⟩
    rw [changeMark_deadline hg (.inr hj), e]; rfl
  · have e := deadline_idle hn hf
    have hj : (deadline s).station ≠ .joined := by rw [e]; simp [hs]
    refine ⟨s.change.slot, [], by simp, ⟨fun q => absurd q hf, fun _ => rfl⟩, ?_⟩
    rw [changeMark_deadline hg (.inr hj), e]; rfl

end Sys2Proof.Machine
end

section
/-! SUPPORT. A re-phase reads nothing of the slot, the collection or the report queue: on two stations that differ only there it makes
the same of the carrier, the gates and the setpoints (R100, R101, R102). -/

namespace Sys2Proof.Machine

/-- What a re-phase and its load read is the same in both. -/
structure Alike (s t : State) : Prop where
  station : t.station = s.station
  carrier : t.carrier = s.carrier
  gate : t.gate = s.gate
  setpoint : t.setpoint = s.setpoint
  tables : t.tables = s.tables
  profile : t.change.profile = s.change.profile
  free : t.free = s.free

/-- The same of a load, with the STARVED cause that it may raise. -/
def AlikeLoad (p q : State × Bool) : Prop := Alike p.1 q.1 ∧ q.2 = p.2

theorem Alike.liveProfile {s t : State} (h : Alike s t) : liveProfile t = liveProfile s := by
  unfold Machine.liveProfile; rw [h.tables, h.profile]

theorem Alike.carrierNow {s t : State} (h : Alike s t) : carrierNow t = carrierNow s := by
  unfold Machine.carrierNow; rw [h.carrier]

theorem Alike.judgeGates {s t : State} (h : Alike s t) : Alike (judgeGates s) (judgeGates t) := by
  unfold Machine.judgeGates; rw [h.station]; split
  · exact { h with station := rfl, gate := by dsimp only; rw [h.gate, h.carrierNow] }
  · exact h

theorem Alike.takeLive {s t : State} (h : Alike s t) : Alike (takeLive s) (takeLive t) := by
  unfold Machine.takeLive; rw [h.station]; split
  · exact { h with station := rfl, gate := by dsimp only; rw [h.gate, h.setpoint, h.liveProfile] }
  · exact h

theorem Alike.gateLoad {s t : State} (h : Alike s t) : Alike (gateLoad s) (gateLoad t) := h.takeLive.judgeGates

theorem Alike.advanceTo {s t : State} (position : Nat) (h : Alike s t) :
    Alike (advanceTo position s) (advanceTo position t) := by
  refine Alike.judgeGates { h with carrier := ?_ }
  dsimp only; rw [h.carrier]

theorem Alike.starvedLoad {s t : State} (h : Alike s t) : AlikeLoad (starvedLoad s) (starvedLoad t) := by
  unfold AlikeLoad Machine.starvedLoad; dsimp only; rw [h.setpoint, h.tables]
  refine ⟨?_, rfl⟩
  split
  · exact { h with setpoint := by dsimp only; rw [h.setpoint] }
  · exact { h with setpoint := by dsimp only [postSelf, post]; rw [h.setpoint] }

theorem Alike.discardStale {s t : State} (h : Alike s t) : Alike (discardStale s) (discardStale t) := by
  unfold Machine.discardStale; dsimp only; rw [h.setpoint, h.profile]; split
  · exact h
  · exact { h with setpoint := by dsimp only [postSelf, post]; rw [h.setpoint] }

theorem Alike.queueLoad {s t : State} (h : Alike s t) : AlikeLoad (queueLoad s) (queueLoad t) := by
  have d := h.discardStale
  unfold Machine.queueLoad; dsimp only; rw [d.setpoint]; split
  · exact d.starvedLoad
  · exact ⟨{ d with setpoint := rfl }, rfl⟩

theorem Alike.patternLoad {s t : State} (h : Alike s t) : Alike (patternLoad s) (patternLoad t) := by
  unfold Machine.patternLoad; dsimp only; rw [h.setpoint, h.liveProfile, h.tables]
  repeat' split
  · exact h
  · exact { h with setpoint := rfl, tables := rfl }
  · exact h
  · exact { h with setpoint := by dsimp only [postSelf, post]; rw [h.setpoint] }

theorem Alike.load {s t : State} (h : Alike s t) : AlikeLoad (load s) (load t) := by
  unfold Machine.load; rw [h.liveProfile]; split
  · exact h.queueLoad
  · exact ⟨h.patternLoad, rfl⟩

theorem Alike.loadAt {s t : State} (position : Nat) (loadFirst : Bool) (h : Alike s t) :
    AlikeLoad (loadAt position loadFirst s) (loadAt position loadFirst t) := by
  unfold Machine.loadAt; rw [h.carrier]; split
  · have l : AlikeLoad (Machine.load { s with
        carrier := { s.carrier with position := previousPosition s.carrier.period position } })
        (Machine.load { t with
          carrier := { s.carrier with position := previousPosition s.carrier.period position } }) :=
      Alike.load { h with carrier := rfl }
    exact ⟨l.1.gateLoad.advanceTo position, l.2⟩
  · have l := (h.advanceTo position).load
    exact ⟨l.1.gateLoad, l.2⟩

theorem Alike.noteRerun {s t : State} (h : Alike s t) : Alike (noteRerun s) (noteRerun t) :=
  { h with carrier := by dsimp only [Machine.noteRerun]; rw [h.carrier] }

theorem Alike.markRephase {s t : State} (h : Alike s t) : AlikeLoad (markRephase s) (markRephase t) := by
  unfold Machine.markRephase advanceAndLoad chooseFirst; dsimp only; rw [h.carrier]
  have n := h.noteRerun
  repeat' split
  · rw [n.free]; exact Alike.loadAt _ _ { n with free := rfl }
  · exact n.loadAt _ _
  · exact ⟨n.advanceTo _, rfl⟩
  · exact ⟨h, rfl⟩

end Sys2Proof.Machine
end

section
/-! A mark that applies no change (O41): at a stopped carrier, and beside the re-phase of a running one. -/

namespace Sys2Proof.Machine

/-! ## The STARVED cause of the re-phase (R65, R125, R133) -/

/-- A STARVED that is not raised, or has no TRIP row, posts one report at most, or waits. -/
theorem raiseStarved_harmless {raised : Bool} {s : State}
    (h : raised = true → (rowOf s.tables .starved).action ≠ .trip) : ∃ l, l.length ≤ 1 ∧ ∃ n w,
      raiseStarved raised s = { s with
        host := { s.host with reports := postAll l s.host.reports }, free := n, now := { s.now with waiting := w } } := by
  cases raised with
  | false => exact ⟨[], by simp, s.free, s.now.waiting, rfl⟩
  | true => exact raiseStarved_mild true s (h rfl)

/-- Under a TRIP row STARVED trips a RUNNING station. -/
theorem takeOwnCause_starved_trips {s : State} (hs : s.station = .running)
    (hr : (rowOf s.tables .starved).action = .trip) :
    takeOwnCause .starved s = tripEntry .starved (rowOf s.tables .starved).drive s.number none s := by
  have he : evaluated .starved s.station = true := by rw [hs]; rfl
  unfold takeOwnCause takeCause; rw [if_pos he]; dsimp only; rw [hr]
  dsimp only [tripClaim]; rw [hs]

/-- No unapplied slot retires the station. -/
theorem Unapplied.not_retiring {s : State} (h : Unapplied s) : retiring s = false := by
  rw [Bool.eq_false_iff]; intro hr
  simp only [retiring, deadlineFalls, Bool.and_eq_true, beq_iff_eq] at hr
  exact h ⟨hr.1.2, hr.1.1.1.2⟩

/-! ## Beside a re-phase that does not trip -/

/-- Between `s` and `t` lies the mark event of a change that is not applied, with its re-phase: of the station that re-phases from
`u`, the outputs are `r`'s, and the rest is what the Change Unit closes, with reports of which `n` is the greatest number. -/
structure Beside (u : State) (r : State) (n : Nat) (t : State) : Prop where
  station : t.station = u.station
  outputs : t.carrier = r.carrier ∧ t.gate = r.gate ∧ t.setpoint = r.setpoint
  link : t.link = u.link
  view : t.change.view = u.change.view ∧ t.change.profile = u.change.profile ∧ t.change.collection = []
  closed : ∃ l, l.length ≤ n ∧ t.host.reports = postAll l u.host.reports ∧ ClosedAs u t.change.slot l

/-- Reports that come before or after those of a close. -/
theorem ClosedAs.mono {s : State} {c : Slot} {l m : List Report} (h : ClosedAs s c l) (hm : ∀ r ∈ l, r ∈ m) :
    ClosedAs s c m := ⟨fun hf => ⟨(h.falling hf).1, hm _ (h.falling hf).2⟩, h.idle⟩

/-- Falling is a matter of the slot and the cycle number. -/
theorem falling_congr {s t : State} (hc : t.change.slot = s.change.slot) (hl : t.link = s.link) :
    Falling t ↔ Falling s := by unfold Falling; rw [hc, hl]

theorem deadlineReport_congr {s t : State} (hc : t.change.slot = s.change.slot) (hl : t.link = s.link)
    (hn : t.number = s.number) : deadlineReport t = deadlineReport s := by
  unfold deadlineReport reportOf; rw [hc, hl, hn]

/-- A close reads of the station nothing that a re-phase changes. -/
theorem ClosedAs.congr {s t : State} {c : Slot} {l : List Report} (h : ClosedAs t c l)
    (hc : t.change.slot = s.change.slot) (hl : t.link = s.link) (hn : t.number = s.number) (hs : t.station = s.station)
    (ht : t.tables = s.tables) (hr : t.roster = s.roster) : ClosedAs s c l where
  falling hf := by
    obtain ⟨hd, hm⟩ := h.falling ((falling_congr hc hl).2 hf)
    rw [deadlineReport_congr hc hl hn] at hm
    unfold DroppedAs at hd ⊢; rw [hs, ht, hr] at hd
    exact ⟨hd, hm⟩
  idle hf := (h.idle fun q => hf ((falling_congr hc hl).1 q)).trans hc

/-- The Change Unit after the load, where the STARVED cause does not trip. -/
theorem changeAfterLoad_harmless {raised : Bool} {s : State} (hs : s.station = .running) (hn : Unapplied s)
    (hr : raised = true → (rowOf s.tables .starved).action ≠ .trip) :
    Beside s s 2 (changeAfterLoad raised s) := by
  have before {x : State} {l : List Report} {n : Nat} {w : List Postponed} (hl : l.length ≤ 1)
      (hx : x = { s with
        host := { s.host with reports := postAll l s.host.reports }, free := n, now := { s.now with waiting := w } }) :
      Beside s s 2 (changeMark x) := by
    subst hx
    obtain ⟨c, m, hm, hc, e⟩ := changeMark_unapplied (s := { s with
      host := { s.host with reports := postAll l s.host.reports }, free := n, now := { s.now with waiting := w } }) hs hn
    have hc : ClosedAs s c m := ⟨hc.falling, hc.idle⟩
    rw [e]
    refine ⟨rfl, ⟨rfl, rfl, rfl⟩, rfl, ⟨rfl, rfl, rfl⟩, l ++ m, by simp; omega, (postAll_append ..).symm, ?_⟩
    exact hc.mono fun r h => by simp [h]
  cases raised with
  | false =>
    have e : changeAfterLoad false s = changeMark s := by unfold changeAfterLoad; rw [if_neg (by simp)]; rfl
    rw [e]; exact before (l := []) (n := s.free) (w := s.now.waiting) (by simp) rfl
  | true =>
    unfold changeAfterLoad chooseFirst; dsimp only
    rw [hn.not_retiring]; repeat' split
    · contradiction
    · obtain ⟨l, hl, e⟩ := takeCause_mild .starved s.number none { s with free := s.free + 1 } (hr rfl)
      exact before (n := s.free + 1) (w := s.now.waiting) hl e
    · obtain ⟨c, m, hm, hc, e⟩ := changeMark_unapplied (s := { s with free := s.free + 1 }) hs hn
      have hc : ClosedAs s c m := ⟨hc.falling, hc.idle⟩
      rw [e]
      obtain ⟨l, hl, n, w, e'⟩ := raiseStarved_harmless (raised := true) (s := { s with
        change := { s.change with slot := c, collection := [] }
        host := { s.host with reports := postAll m s.host.reports }, free := s.free + 1 }) hr
      rw [e']
      refine ⟨rfl, ⟨rfl, rfl, rfl⟩, rfl, ⟨rfl, rfl, rfl⟩, m ++ l, by simp; omega, (postAll_append ..).symm, ?_⟩
      exact hc.mono fun r h => by simp [h]
    · obtain ⟨l, hl, n, w, e⟩ := raiseStarved_harmless hr
      exact before hl e

/-- The mark event of a running carrier that applies nothing and does not trip (R102). -/
theorem markEvent_harmless {a u : State} (hu : u = { a with roster := { a.roster with mismatch := false }, free := a.free + 1 })
    (hs : u.station = .running) (hc : u.carrier.running = true) (ht : u.carrier.setThisTick = false) (hn : Unapplied u)
    (hr : (markRephase u).2 = true → (rowOf u.tables .starved).action ≠ .trip) :
    Beside u (markRephase u).1 4 (markEvent a) := by
  rw [markEvent_running (by rw [hu] at hc; exact hc) hu]; split
  · obtain ⟨l, hl, n, e⟩ := markRephase_eq u hc ht
    generalize markRephase u = r at e hr ⊢
    have hrs : r.1.station = .running := by rw [e]; exact hs
    have hrn : Unapplied r.1 := by rw [e]; exact hn
    obtain ⟨b1, b2, b3, ⟨b4, b5, b6⟩, m, hm, b7, b8⟩ := changeAfterLoad_harmless hrs hrn (by rw [e]; exact hr)
    have b8 : ClosedAs u (changeAfterLoad r.2 r.1).change.slot m :=
      b8.congr (by rw [e]) (by rw [e]) (by rw [e]) (by rw [e]) (by rw [e]) (by rw [e])
    refine ⟨b1.trans (by rw [e]), b2, b3.trans (by rw [e]), ⟨b4.trans (by rw [e]), b5.trans (by rw [e]), b6⟩, l ++ m,
      by simp; omega, ?_, b8.mono fun r h => by simp [h]⟩
    rw [b7, postAll_append, e]
  · obtain ⟨c, m, hm, hcl, e⟩ := changeMark_unapplied hs hn
    obtain ⟨v, hv⟩ : ∃ v, v = changeMark u := ⟨_, rfl⟩
    rw [← hv] at e ⊢
    have k : Alike u v := by rw [e]; constructor <;> rfl
    obtain ⟨kr, kb⟩ := k.markRephase
    obtain ⟨l, hl, n, e2⟩ := markRephase_eq v (by rw [e]; exact hc) (by rw [e]; exact ht)
    rw [kb]
    generalize markRephase v = r at e2 kr ⊢
    obtain ⟨q, hq, n', w, e3⟩ := raiseStarved_harmless (s := r.1) (fun h => by rw [e2, e]; exact hr h)
    rw [e3]
    refine ⟨?_, ⟨kr.carrier, kr.gate, kr.setpoint⟩, ?_, ⟨?_, ?_, ?_⟩, m ++ (l ++ q), by simp; omega, ?_, ?_⟩
    · dsimp only; rw [e2, e]
    · dsimp only; rw [e2, e]
    · dsimp only; rw [e2, e]
    · dsimp only; rw [e2, e]
    · dsimp only; rw [e2, e]
    · dsimp only; rw [e2, e, postAll_append, postAll_append]
    · have hs' : r.1.change.slot = c := by rw [e2, e]
      exact hs' ▸ hcl.mono fun r h => by simp [h]

/-! ## Beside a re-phase whose load trips -/

/-- The trip entry that a STARVED makes at such a mark, and what it has found: the slot as it stood, or closed at its deadline. -/
structure TrippedBeside (u : State) (n : Nat) (t : State) : Prop where
  station : t.station = .tripped
  first : t.trip.first = some .starved
  link : t.link = u.link
  slot : t.change.slot = Slot.vacant ∧ t.change.view = 0
  outputs : t.gate = Gate.off ∧ t.carrier = Carrier.stopped ∧ t.setpoint = SetpointUnit.empty
  reports : ∃ l, l.length ≤ n ∧ t.host.reports = postAll l u.host.reports ∧
    (Falling u → deadlineReport u ∈ l ∨
      reportOf (.changeClosed .abandoned u.change.slot.sequence u.change.slot.remote u.change.slot.automatic .trip)
        u.change.slot.proposer u ∈ l)

theorem length_abandonedReports (why : CloseReason) (s : State) : (abandonedReports why s).length ≤ 1 := by
  unfold abandonedReports; dsimp only; split <;> simp

/-- A trip entry after reports of the same mark: of a change at its deadline either the close or the abandonment is posted. -/
theorem trippedBeside_tripEntry {u x : State} {d : Bool} {k : StationNo} {l : List Report} {n : Nat} (hl : l.length ≤ n)
    (hlink : x.link = u.link) (hx : x.host.reports = postAll l u.host.reports)
    (hc : Falling u → deadlineReport u ∈ l ∨ x.change.slot = u.change.slot) :
    TrippedBeside u (n + 2) (tripEntry .starved d k none x) := by
  rw [tripEntry_eq]
  refine ⟨rfl, rfl, hlink, ⟨rfl, rfl⟩, ⟨rfl, rfl, rfl⟩,
    l ++ reportOf (.tripped .starved d x.station none) k x :: abandonedReports .trip x, ?_, ?_, fun hf => ?_⟩
  · have := length_abandonedReports .trip x
    simp only [List.length_append, List.length_cons]; omega
  · dsimp only; rw [postAll_append, ← hx]
  · rcases hc hf with h | h
    · exact .inl (by simp [h])
    · refine .inr ?_
      simp [abandonedReports, h, hf.1, reportOf, hlink]

theorem TrippedBeside.emptied {u t : State} {n : Nat} (h : TrippedBeside u n t) : TrippedBeside u n (emptied t) :=
  ⟨h.station, h.first, h.link, h.slot, h.outputs, h.reports⟩

/-- What has come between two states that differ in nothing a close reads, but for reports. -/
theorem TrippedBeside.after {u v t : State} {l : List Report} {m n : Nat} (h : TrippedBeside v n t) (hl : l.length ≤ m)
    (hv : v.host.reports = postAll l u.host.reports) (hc : v.change.slot = u.change.slot) (hk : v.link = u.link)
    (hn : v.number = u.number) : TrippedBeside u (m + n) t := by
  obtain ⟨q, hq, e, hf⟩ := h.reports
  refine ⟨h.station, h.first, h.link.trans hk, h.slot, h.outputs, l ++ q, by simp; omega, ?_, fun hfall => ?_⟩
  · rw [e, hv, postAll_append]
  · have := hf ((falling_congr hc hk).2 hfall)
    rw [deadlineReport_congr hc hk hn, hc] at this
    unfold reportOf at this ⊢; rw [hk] at this
    rcases this with h | h
    · exact .inl (by simp [h])
    · exact .inr (by simp [h])

/-- The Change Unit after a load that trips: the trip first, or the close at the deadline (R65). -/
theorem changeAfterLoad_trips {s : State} (hs : s.station = .running) (hn : Unapplied s)
    (hrow : (rowOf s.tables .starved).action = .trip) (hp : s.pending = []) :
    TrippedBeside s 3 (changeAfterLoad true s) := by
  have first (m : Nat) : TrippedBeside s 3 (changeMark (takeOwnCause .starved { s with free := m })) := by
    obtain ⟨x, hx⟩ : ∃ x : State, x = { s with free := m } := ⟨_, rfl⟩
    rw [← hx, takeOwnCause_starved_trips (by rw [hx]; exact hs) (by rw [hx]; exact hrow),
      changeMark_tripped (tripEntry_station ..)]
    refine TrippedBeside.emptied (trippedBeside_tripEntry (l := []) (n := 1) (by simp) ?_ ?_ fun _ => .inr ?_) <;> rw [hx]
    rfl
  unfold changeAfterLoad chooseFirst; dsimp only
  rw [hn.not_retiring]; repeat' split
  · contradiction
  · exact first _
  · obtain ⟨c, l, hl, hc, e⟩ := changeMark_unapplied (s := { s with free := s.free + 1 }) hs hn
    generalize changeMark { s with free := s.free + 1 } = x at e ⊢
    rw [raiseStarved_alone _ (by rw [e]; exact hp), if_pos rfl,
      takeOwnCause_starved_trips (by rw [e]; exact hs) (by rw [e]; exact hrow)]
    refine trippedBeside_tripEntry (l := l) hl (by rw [e]) (by rw [e]) fun hf => .inl ?_
    exact (hc.falling hf).2
  · rw [raiseStarved_alone _ hp, if_pos rfl]; exact first s.free

/-- The mark event of a running carrier that applies nothing, where the load trips and no other event of the tick waits. -/
theorem markEvent_trips {a u : State} (hu : u = { a with roster := { a.roster with mismatch := false }, free := a.free + 1 })
    (hs : u.station = .running) (hc : u.carrier.running = true) (ht : u.carrier.setThisTick = false) (hn : Unapplied u)
    (hr : (markRephase u).2 = true) (hrow : (rowOf u.tables .starved).action = .trip) (hp : u.pending = []) :
    TrippedBeside u 5 (markEvent a) := by
  rw [markEvent_running (by rw [hu] at hc; exact hc) hu]; split
  · obtain ⟨l, hl, n, e⟩ := markRephase_eq u hc ht
    rw [hr]
    generalize (markRephase u).1 = v at e ⊢
    have b := changeAfterLoad_trips (s := v) (by rw [e]; exact hs) (by rw [e]; exact hn) (by rw [e]; exact hrow)
      (by rw [e]; exact hp)
    exact b.after (m := 2) hl (by rw [e]) (by rw [e]) (by rw [e]) (by rw [e])
  · obtain ⟨c, m, hm, hcl, e⟩ := changeMark_unapplied hs hn
    generalize changeMark u = v at e ⊢
    have k : Alike u v := by rw [e]; constructor <;> rfl
    obtain ⟨l, hl, n, e2⟩ := markRephase_eq v (by rw [e]; exact hc) (by rw [e]; exact ht)
    rw [k.markRephase.2, hr]
    generalize (markRephase v).1 = x at e2 ⊢
    rw [raiseStarved_alone _ (by rw [e2, e]; exact hp), if_pos rfl,
      takeOwnCause_starved_trips (by rw [e2, e]; exact hs) (by rw [e2, e]; exact hrow)]
    refine trippedBeside_tripEntry (l := m ++ l) (n := 3) (by simp; omega) (by rw [e2, e]) ?_ fun hf => .inl ?_
    · rw [e2, e, postAll_append]
    · simp [(hcl.falling hf).2]

end Sys2Proof.Machine
end

section
/-! The statement on a mark that closes a change, or leaves it, and applies none (O41). -/

namespace Sys2Proof.Machine

/-- The station from which a running carrier re-phases at an accepted mark. -/
theorem numbered_free (start : Nat) (s : State) :
    ({ numbered start s with free := s.free + 1 } : State) =
      { agreeNumber (markRestart (watched start s)) with
        roster := { (agreeNumber (markRestart (watched start s))).roster with mismatch := false }
        free := (agreeNumber (markRestart (watched start s))).free + 1 } := by
  have e : (agreeNumber (markRestart (watched start s))).free = s.free := by
    obtain ⟨c, l, -, e, -⟩ := numbered_eq start s
    exact congrArg (·.free) e
  rw [e]; rfl

/-- A report of a mark that has found room for all its reports. -/
theorem mem_of_room {l q reports queue : List Report} {r : Report} (hr : r ∈ q) (hl : l.length + q.length ≤ 8)
    (h : queue.length ≤ 8) (e : reports = postAll q (postAll l queue)) : r ∈ reports := by
  rw [e, ← postAll_append, postAll_of_room (by simp; omega)]
  simp [hr]

/-- One of the first fifteen reports of the queue stays there whatever arrives: only the sixteenth can be marked (R169). -/
theorem mem_take_arrive {r x : Report} {queue : List Report} (h : r ∈ queue.take 15) : r ∈ (arrive queue x).take 15 := by
  rcases Nat.lt_or_ge queue.length 16 with hl | hl
  · rw [arrive_of_lt hl, List.take_append]; exact List.mem_append_left _ h
  · rw [arrive_of_full hl]
    obtain ⟨i, hi⟩ := List.mem_iff_getElem?.1 h
    refine List.mem_iff_getElem?.2 ⟨i, ?_⟩
    rw [List.getElem?_take] at hi ⊢
    split at hi
    · rename_i h15
      rw [if_pos h15, getElem?_markGap, hi, Option.map_some, if_neg (by omega)]
    · cases hi

theorem mem_postAll {r : Report} {queue : List Report} (h : r ∈ queue.take 15) (l : List Report) : r ∈ postAll l queue := by
  induction l generalizing queue with
  | nil => exact List.mem_of_mem_take h
  | cons x rest ih => exact ih (mem_take_arrive h)

/-- The slot of a close, but for the station state that its re-check has found. -/
theorem DroppedAs.rebuilt {s : State} {c : Slot} (h : DroppedAs s c) :
    c = Slot.vacant ∨ (rowOf s.tables .peerLoss).action = .respace ∧ s.roster.lost ≠ 0 ∧ c.state = .pending ∧
      c.automatic = true := h.imp_right fun q => q.2

/-- The report of a deadline is the one that the own verdict asks for. -/
theorem deadlineReport_cases (s : State) :
    let c := s.change.slot
    (c.verdict = none ∨ c.verdict = some .accept) ∧
        deadlineReport s = reportOf (.changeClosed .lapsed c.sequence c.remote c.automatic .noReason) c.proposer s ∨
      ∃ reason, reason ≠ Verdict.accept ∧ c.verdict = some reason ∧
        deadlineReport s = reportOf (.changeClosed .refused c.sequence c.remote c.automatic (.refusal reason)) s.number s := by
  dsimp only
  rcases hv : s.change.slot.verdict with - | reason
  · exact .inl ⟨.inl rfl, deadlineReport_lapsed (.inl hv)⟩
  · by_cases hr : reason = .accept
    · exact .inl ⟨.inr (by rw [hr]), deadlineReport_lapsed (.inr (by rw [hv, hr]))⟩
    · exact .inr ⟨reason, hr, rfl, deadlineReport_refused hr hv⟩

/-- A slip leaves no change in the slot that a deadline acts on. -/
theorem slipped_idle {s : State} {c : Slot} (h : (s.change.slot.state = .vacant → c = s.change.slot) ∧
    (s.change.slot.state ≠ .vacant → DroppedAs s c)) : c.state ≠ .agreed ∧ c.state ≠ .opened := by
  by_cases hv : s.change.slot.state = .vacant
  · rw [h.1 hv, hv]; simp
  · rcases (h.2 hv).idle with e | e <;> rw [e] <;> simp

/-- What the number that a mark gives leaves of a RUNNING station: the slot, the reports `l` of it, and the new number (R18). -/
structure Numbered (s u : State) (c : Slot) (l : List Report) : Prop where
  station : u.station = s.station
  carrier : u.carrier = { s.carrier with setThisTick := false }
  tables : u.tables = s.tables
  number : u.number = s.number
  pending : u.pending = s.pending
  change : u.change = { s.change with slot := c }
  lost : u.roster.lost = s.roster.lost
  reports : u.host.reports = postAll l s.host.reports
  room : l.length ≤ 2
  slip : Slips s → (s.change.slot.state = .vacant → c = s.change.slot) ∧ (s.change.slot.state ≠ .vacant → DroppedAs s c ∧
    ⟨.changeClosed .slipped s.change.slot.sequence s.change.slot.remote s.change.slot.automatic .noReason, false,
      u.link.cycle, s.change.slot.proposer⟩ ∈ l)
  stay : ¬Slips s → c = s.change.slot ∧ u.link.cycle = s.link.cycle + 1

theorem numbered_numbers (start : Nat) (s : State) :
    ∃ c l, Numbered s { numbered start s with free := s.free + 1 } c l := by
  obtain ⟨c, l, room, e, slip, stay⟩ := numbered_eq start s
  generalize numbered start s = v at e slip stay ⊢
  refine ⟨c, l, ?_, ?_, ?_, ?_, ?_, ?_, ?_, ?_, room, slip, stay⟩ <;> rw [e]

namespace Numbered

variable {s u : State} {c : Slot} {l : List Report} (h : Numbered s u c l)
include h

theorem slot : u.change.slot = c := by rw [h.change]

theorem idle (hs : Slips s) : u.change.slot.state ≠ .agreed ∧ u.change.slot.state ≠ .opened := by
  rw [h.slot]
  obtain ⟨same, drop⟩ := h.slip hs
  exact slipped_idle ⟨same, fun q => (drop q).1⟩

/-- A slip, or no change AGREED for the new number, leaves nothing to apply. -/
theorem unapplied (hcase : Slips s ∨ ¬(s.change.slot.state = .agreed ∧ s.change.slot.effective = s.link.cycle + 1)) :
    Unapplied u := by
  rintro ⟨ha, he⟩
  by_cases hs : Slips s
  · exact (h.idle hs).1 ha
  · obtain ⟨hslot, hcycle⟩ := h.stay hs
    rw [h.slot, hslot] at ha he
    exact (hcase.resolve_left hs) ⟨ha, he.trans hcycle⟩

theorem falling : Falling u ↔
    ¬Slips s ∧ s.change.slot.state = .opened ∧ s.change.slot.effective = s.link.cycle + 1 := by
  by_cases hs : Slips s
  · exact ⟨fun q => absurd q.1 (h.idle hs).2, fun q => absurd hs q.1⟩
  · obtain ⟨hslot, hcycle⟩ := h.stay hs
    unfold Falling; rw [h.slot, hslot, hcycle]; simp [hs]

theorem dropped {x : Slot} (hx : DroppedAs u x) : DroppedAs s x := by
  unfold DroppedAs at hx ⊢; rwa [h.tables, h.lost, h.station] at hx

/-- The report of the deadline, as the change of the station before the mark has it. -/
theorem deadline_cases (hs : ¬Slips s) :
    let c := s.change.slot
    let close (o : ChangeOutcome) (x : StationNo) (why : CloseReason) : Report :=
      ⟨.changeClosed o c.sequence c.remote c.automatic why, false, u.link.cycle, x⟩
    (c.verdict = none ∨ c.verdict = some .accept) ∧ deadlineReport u = close .lapsed c.proposer .noReason ∨
      ∃ reason, reason ≠ Verdict.accept ∧ c.verdict = some reason ∧
        deadlineReport u = close .refused s.number (.refusal reason) := by
  have cases := deadlineReport_cases u
  dsimp only at cases
  rwa [h.slot, (h.stay hs).1, h.number] at cases

end Numbered

/-- Settles O41: the slip, the deadline, the mark with a stopped carrier, and the mark beside a re-phase. -/
theorem slipAndDeadlineCloseTheChange : Obligations.SlipAndDeadlineCloseTheChange := by
  refine ⟨fun v s hv hn hw => ?_, fun s ho he => ?_, fun start s hp hl hc ht hs => ?_, fun start s hp hs hc ht hsh => ?_⟩
  · obtain ⟨c, h1, h2, e⟩ := agreeNumber_slips (agreement_slips hv hn hw)
    dsimp only; rw [e]
    refine ⟨rfl, fun hv => ⟨by rw [h1 hv], ?_⟩, fun hv => ⟨?_, ?_⟩, rfl, rfl, rfl, rfl⟩
    · dsimp only; rw [slipReports, if_pos hv]
    · dsimp only; rw [slipReports, if_neg hv]; rfl
    · rcases h2 hv with h | ⟨hr, -, -, hst, ha⟩
      · exact .inl h
      · exact .inr ⟨hr, ha, hst⟩
  · obtain ⟨c, hc, e⟩ := deadline_falling ⟨ho, he⟩
    dsimp only; rw [e]
    refine ⟨fun h => ?_, fun reason hr h => ?_, rfl, rfl, rfl, ?_⟩
    · dsimp only; rw [deadlineReport_lapsed h]
    · dsimp only; rw [deadlineReport_refused hr h]
    · exact hc
  · have hex := exec_acceptedMark hp hl ht hs
    obtain ⟨c, l, -, e, -, hn⟩ := numbered_eq start s
    have hstop : (agreeNumber (markRestart (watched start s))).carrier.running = false := by
      have := congrArg (·.carrier.running) e
      exact this.trans hc
    rw [markEvent_stopped hstop] at hex
    have hex : exec (.markAccepted start) s = .next (changeMark (numbered start s)) := hex
    refine ⟨hex, congrArg (·.station) e, fun hw => ?_, fun hg hv => ?_⟩
    · have a : agreeNumber (markRestart (watched start s)) = _ := agreeNumber_agrees (agreement_agrees hw)
      unfold numbered; dsimp only
      exact ⟨congrArg (·.change) a, congrArg (·.host) a⟩
    · have hst : (numbered start s).station = s.station := congrArg (·.station) e
      have hg' : inGroup (numbered start s) = true := by unfold inGroup at hg ⊢; rw [hst]; exact hg
      rw [hex, changeMark_deadline hg' (.inl hv)]; rfl
  · have hl : onLink s = true := (onLink_iff s).2 (.inr (.inl hs))
    have hex := exec_acceptedMark hp hl ht hsh
    have hu := numbered_free start s
    obtain ⟨c, l, hn⟩ := numbered_numbers start s
    dsimp only
    generalize hN : ({ numbered start s with free := s.free + 1 } : State) = u at hu hn ⊢
    have hlink : (numbered start s).link = u.link := by rw [← hN]
    rw [hlink]
    have room := hn.room
    have hrun : u.carrier.running = true := by rw [hn.carrier]; exact hc
    have hset : u.carrier.setThisTick = false := by rw [hn.carrier]
    have hust : u.station = .running := hn.station.trans hs
    intro hcase
    have hunap := hn.unapplied hcase
    have m := steady_markEvent (agreeNumber (markRestart (watched start s)))
    obtain ⟨later, hposts⟩ : ∃ later, (markEvent (agreeNumber (markRestart (watched start s)))).host.reports =
        postAll later u.host.reports := by rw [hu]; exact m.posts
    refine ⟨_, hex, by rw [m.link, hu]; rfl, fun h hv hlen => ?_, fun hnt => ?_, fun htr hpe => ?_⟩
    · rw [hposts, hn.reports, postAll_of_room (reports := l) (by omega)]
      exact mem_postAll (by rw [List.take_of_length_le (by simp; omega)]; simp [((hn.slip h).2 hv).2]) _
    · obtain ⟨hstation, ⟨hcarrier, hgate, hsetpoint⟩, -, ⟨hview, hprofile, hcollect⟩, q, hq, hrep, hcl⟩ :=
        markEvent_harmless hu hust hrun hset hunap fun hr hrow => hnt ⟨hr, by rw [← hn.tables]; exact hrow⟩
      refine ⟨hstation.trans hust, hcarrier, hgate, hsetpoint, hview.trans (by rw [hn.change]),
        hprofile.trans (by rw [hn.change]), hcollect, fun h hv => ?_, fun hf => ?_, fun h hf => ?_⟩
      · rw [hcl.idle fun q => (hn.falling.1 q).1 h, hn.slot]; exact ((hn.slip h).2 hv).1.rebuilt
      · obtain ⟨hd, hmem⟩ := hcl.falling (hn.falling.2 hf)
        exact ⟨(hn.dropped hd).rebuilt, fun hlen => ⟨deadlineReport u, hn.deadline_cases hf.1,
          mem_of_room (l := l) hmem (by omega) hlen (by rw [hrep, hn.reports])⟩⟩
      · rw [hcl.idle fun q => hf (hn.falling.1 q), hn.slot]; exact (hn.stay h).1
    · obtain ⟨hstation, hfirst, -, ⟨hslot, hview⟩, ⟨hgate, hcarrier, hsetpoint⟩, q, hq, hrep, hcl⟩ :=
        markEvent_trips hu hust hrun hset hunap htr.1 (by rw [hn.tables]; exact htr.2) (hn.pending.trans hpe)
      refine ⟨hstation, hfirst, hslot, hview, hgate, hcarrier, hsetpoint, fun hf hlen => ?_⟩
      have hroom {r : Report} (hr : r ∈ q) :=
        mem_of_room (l := l) hr (by omega) hlen (hrep.trans (by rw [hn.reports]))
      rcases hcl (hn.falling.2 hf) with h | h
      · exact ⟨_, .inl (hn.deadline_cases hf.1), hroom h⟩
      · rw [hn.slot, (hn.stay hf.1).1] at h
        exact ⟨_, .inr rfl, hroom h⟩

end Sys2Proof.Machine
end

section
/-! SUPPORT. Where the commands of a tick come from, and what each part of a tick leaves (R1, R95, R112, R132, R144, R160). -/

namespace Sys2Proof.Machine

/-! ## The part of the tick that brings a command -/

/-- The parts of a tick, and what comes from outside alone. -/
inductive Origin where
  | host | line | carrier | gate | level | settle | outside

/-- The part of a tick that a command can come from. -/
def origin : Instr → Origin
  | .powerOn _ | .rstnLow => .outside
  | .nop | .join | .leave | .restart | .propose | .hold | .release | .clear | .stop | .push | .flush | .tread | .twrite
  | .recallResult | .unknownCommand _ | .registerWrite _ _ | .reportRead => .host
  | .timerReachesL _ | .deferredMarkStart | .markDriveEnd | .markAccepted _ | .lineDisturbance _ | .markTimeout
  | .loneStart | .ownWindowStart | .frameReceived _ _ | .windowEnd _ | .receptionError _ | .readbackMismatch => .line
  | .loadPoint _ | .compareCrossing _ => .carrier
  | .deadTimeElapsed _ _ => .gate
  | .filteredLevelChange _ => .level
  | .clearSample _ => .settle

theorem origin_commandOf (code : Byte) : origin (commandOf code) = .host := by
  simp only [commandOf, apply_ite origin]
  simp only [origin, ite_self]

theorem origin_tickPort {c : Instr} {s : State} (h : c ∈ (tickPort s).2) : origin c = .host := by
  have byte (t : Transfer) (v : Byte) (h : c ∈ (endByte t v).2) : origin c = .host := by
    unfold endByte at h; split at h
    · simp at h
    · obtain rfl := List.mem_singleton.1 h
      unfold writeCommand; split
      · exact origin_commandOf v
      · rfl
    · split at h
      · obtain rfl := List.mem_singleton.1 h; rfl
      · simp at h
  have sample (u : State) (h : c ∈ (sampleBit u).2) : origin c = .host := by
    unfold sampleBit at h; dsimp only at h; split at h
    · simp at h
    · exact byte _ _ h
  unfold tickPort at h; dsimp only at h
  repeat' split at h
  · simp at h
  · simp at h
  · simp at h
  · exact sample _ h
  · simp at h

theorem mem_timerCommands (s : State) (t : Nat) (idle : Bool) (c : Instr) :
    c ∈ timerCommands s t idle ↔
      receiving s = true ∧ (∃ k, windowEnding s t = some k ∧ c = .windowEnd k) ∨
      (onLink s = true ∧ t = windowStart s.number) ∧ c = .ownWindowStart ∨
      (onLink s = true ∧ s.link.mark = .quiet ∧ t = cycleLength s ∧ idle = true) ∧ c = .timerReachesL false ∨
      t = 2 * cycleLength s ∧ c = .markTimeout := by
  unfold timerCommands
  simp only [List.mem_append, List.mem_ite_nil_right, List.mem_map, Option.mem_toList, List.mem_singleton, or_assoc,
    eq_comm (b := c)]

theorem mem_sampleCommands (s : State) (level : Bool) (c : Instr) :
    c ∈ sampleCommands s level ↔
      (onLink s = true ∧ s.link.mark = .quiet ∧ s.link.timer = cycleLength s) ∧ c = .timerReachesL level ∨
      (onLink s = true ∧ s.link.mark = .deferred ∧ level = false) ∧ c = .deferredMarkStart ∨
      (s.link.bits.sending = true ∧ s.link.bits.txBits.headD false ≠ level) ∧ c = .readbackMismatch := by
  unfold sampleCommands; dsimp only
  simp only [List.mem_append, List.mem_ite_nil_right, List.mem_singleton, or_assoc]

theorem mem_rxCommands (window : Option StationNo) (bytes : List Byte) (event : RxEvent) (c : Instr) :
    c ∈ rxCommands window bytes event ↔
      ∃ k, window = some k ∧ (event = .error ∧ c = .receptionError k ∨ event = .frame ∧ c = .frameReceived k bytes) := by
  unfold rxCommands
  cases window with
  | none => cases event <;> simp
  | some k => cases event <;> simp

theorem mem_runCommands (s : State) (judged : Option Nat) (c : Instr) :
    c ∈ runCommands s judged ↔ ∃ start, judged = some start ∧
      (runKind s start = .mark ∧ c = .markAccepted start ∨
        runKind s start = .disturbance ∧ ∃ k, windowAt s start = some k ∧ c = .lineDisturbance k) := by
  unfold runCommands
  cases judged with
  | none => simp
  | some start =>
    cases h : runKind s start <;> simp [h, eq_comm (a := c)]

/-! ## The end of a bit time, piece by piece (R1, R3, R5 to R8, R12, R14) -/

/-- The timer after one more bit time. -/
def timerAfter (s : State) : Nat := if timerRuns s then s.link.timer + 1 else s.link.timer

/-- The elapsed count after one more bit time; it counts in SEEK alone. -/
def elapsedAfter (s : State) : Nat :=
  if s.station = .listening ∧ s.acq.phase = .seek then min (4 * cycleLength s) (s.acq.elapsed + 1) else s.acq.elapsed

/-- The window in progress, where it is received. -/
def windowNow (s : State) : Option StationNo := if receiving s then windowAt s s.link.timer else none

/-- What the bit time brings to the receiver. -/
def received (s : State) : RxPhase × List Byte × RxEvent :=
  match windowNow s with
  | none => (s.link.bits.rx, s.link.rxBuffer, .nothing)
  | some k =>
    rxAfter s.link.bits.sample s.link.bits.previous (s.link.timer - windowStart k) s.link.bits.rx s.link.rxBuffer

/-- The dominant bit times of the own mark after one more bit time. -/
def drivenAfter (s : State) : Nat :=
  if s.link.mark = .driving then (if s.link.bits.sample then s.link.bits.driven + 1 else s.link.bits.driven) else 0

/-- The run after the bit time, and the start of one that is judged. -/
def runNow (s : State) : LineRun × Option Nat := runAfter s.link.bits.sample s.link.timer s.link.bits.run

/-- The station after the end of a bit time. -/
def bitEnded (s : State) : State :=
  { s with
    acq := { s.acq with elapsed := elapsedAfter s }
    link := { s.link with
      timer := timerAfter s, rxBuffer := (received s).2.1
      bits := { s.link.bits with
        phase := 0, sampled := false, previous := s.link.bits.sample, run := (runNow s).1, driven := drivenAfter s,
        txBits := (txAfter s (timerAfter s)).1, sending := (txAfter s (timerAfter s)).2, rx := (received s).1 } } }

/-- The mark that the bit time brings, or what the timer and the receiver bring in its place. -/
def bitCommands (s : State) : List Instr :=
  let marks := runCommands s (runNow s).2
  let ends := if drivenAfter s = 12 then [Instr.markDriveEnd] else []
  if marks.any isMark then marks ++ ends
  else
    rxCommands (windowNow s) (received s).2.1 (received s).2.2 ++ marks
      ++ (if timerRuns s then
          timerCommands s (timerAfter s) (!lrxDominant (bitEnded s) && !s.link.bits.sample) else [])
      ++ (if (s.station = .listening ∧ s.acq.phase = .seek) ∧ 4 * cycleLength s ≤ elapsedAfter s ∧
          lrxDominant (bitEnded s) = false then [.loneStart] else [])
      ++ ends

theorem bitEnd_eq (s : State) : bitEnd s = (bitEnded s, bitCommands s) := by
  have hseek : (s.station == .listening && s.acq.phase == .seek) = decide (s.station = .listening ∧ s.acq.phase = .seek) := by
    rw [Bool.eq_iff_iff]; simp
  unfold bitEnd bitCommands bitEnded elapsedAfter
  rw [hseek]
  simp only [decide_eq_true_eq]
  unfold received windowNow runNow timerAfter drivenAfter
  cases hw : (if receiving s = true then windowAt s s.link.timer else none) <;> dsimp only <;> split <;> rfl

/-- The commands of the end of a bit time: of the run, of the own mark, and, where no mark is accepted, of the receiver, the timer
and the lone expiry. -/
theorem mem_bitCommands (s : State) (c : Instr) :
    c ∈ bitCommands s ↔ c ∈ runCommands s (runNow s).2 ∨ drivenAfter s = 12 ∧ c = .markDriveEnd ∨
      (runCommands s (runNow s).2).any isMark = false ∧
        (c ∈ rxCommands (windowNow s) (received s).2.1 (received s).2.2 ∨
          timerRuns s = true ∧
            c ∈ timerCommands s (timerAfter s) (!lrxDominant (bitEnded s) && !s.link.bits.sample) ∨
          ((s.station = .listening ∧ s.acq.phase = .seek) ∧ 4 * cycleLength s ≤ elapsedAfter s ∧
            lrxDominant (bitEnded s) = false) ∧ c = .loneStart) := by
  unfold bitCommands; dsimp only
  cases h : (runCommands s (runNow s).2).any isMark with
  | true =>
    simp only [if_true, List.mem_append, List.mem_ite_nil_right, List.mem_singleton, Bool.true_eq_false, false_and,
      or_false]
  | false =>
    simp only [Bool.false_eq_true, if_false, List.mem_append, List.mem_ite_nil_right, List.mem_singleton, true_and]
    tauto

/-- A bit time brings nothing but the commands of the line. -/
theorem origin_bitCommands {c : Instr} {s : State} (h : c ∈ bitCommands s) : origin c = .line := by
  rcases (mem_bitCommands s c).1 h with h | ⟨-, rfl⟩ | ⟨-, h | ⟨-, h⟩ | ⟨-, rfl⟩⟩
  · obtain ⟨_, -, ⟨-, rfl⟩ | ⟨-, _, -, rfl⟩⟩ := (mem_runCommands ..).1 h <;> rfl
  · rfl
  · obtain ⟨_, -, ⟨-, rfl⟩ | ⟨-, rfl⟩⟩ := (mem_rxCommands ..).1 h <;> rfl
  · rcases (mem_timerCommands ..).1 h with ⟨-, _, -, rfl⟩ | ⟨-, rfl⟩ | ⟨-, rfl⟩ | ⟨-, rfl⟩ <;> rfl
  · rfl

theorem origin_sampleCommands {c : Instr} {s : State} {level : Bool} (h : c ∈ sampleCommands s level) :
    origin c = .line := by
  rcases (mem_sampleCommands s level c).1 h with ⟨-, rfl⟩ | ⟨-, rfl⟩ | ⟨-, rfl⟩ <;> rfl

/-! ## One tick of the line (R1) -/

/-- The sample of the bit time is due. -/
def SampleDue (s : State) : Prop :=
  s.link.bits.phase = ticksOf s.tables.link.divisor / 2 ∧ s.link.bits.sampled = false

theorem takeSample_due {s : State} (h : SampleDue s) : takeSample s =
    ({ s with link := { s.link with bits := { s.link.bits with sampled := true, sample := lrxDominant s } } },
      sampleCommands s (lrxDominant s)) := by
  unfold takeSample; dsimp only; exact if_pos h

theorem takeSample_idle {s : State} (h : ¬SampleDue s) : takeSample s = (s, []) := by
  unfold takeSample; dsimp only; exact if_neg h

theorem half_ticks_pos (d : Divisor) : 2 ≤ ticksOf d / 2 := by cases d <;> decide

/-- No sample is due at the start of a bit time. -/
theorem not_sampleDue_of_start {s : State} (h : s.link.bits.phase = 0) : ¬SampleDue s := by
  rintro ⟨hd, -⟩
  have := half_ticks_pos s.tables.link.divisor
  omega

/-- The end of a bit time, in a tick that takes no sample after it. -/
theorem tickLine_ends {s u : State} {ended : List Instr} (hu : u.link.bits.phase = 0)
    (h : (let b := s.link.bits
      if b.phase + 1 = ticksOf s.tables.link.divisor then bitEnd s
      else if lrxDominant s = true ∧ b.level = false then transition s
      else (setPhase (b.phase + 1) s, [])) = (u, ended)) (ho : s.station ≠ .offline) :
    tickLine s = (noteLevel u, ended) := by
  unfold tickLine; rw [if_neg ho]; dsimp only at h ⊢; rw [h]; dsimp only
  rw [takeSample_idle (not_sampleDue_of_start (s := noteLevel u) hu)]; simp

/-- A bit time that has lasted, or is cut short after its sample (R1). -/
theorem tickLine_bitEnd {s : State} (ho : s.station ≠ .offline)
    (h : s.link.bits.phase + 1 = ticksOf s.tables.link.divisor ∨
      (¬s.link.bits.phase + 1 = ticksOf s.tables.link.divisor ∧ lrxDominant s = true ∧ s.link.bits.level = false) ∧
        s.link.bits.sampled = true) :
    tickLine s = (noteLevel (bitEnded s), bitCommands s) := by
  refine tickLine_ends rfl ?_ ho
  rcases h with h | ⟨⟨hl, hb⟩, hs⟩
  · dsimp only; rw [if_pos h, bitEnd_eq]
  · dsimp only; rw [if_neg hl, if_pos hb]; unfold transition; dsimp only; rw [if_pos hs, bitEnd_eq]

/-- A bit time that is dropped by a transition before its sample (R1). -/
theorem tickLine_dropped {s : State} (ho : s.station ≠ .offline) (hl : ¬s.link.bits.phase + 1 = ticksOf s.tables.link.divisor)
    (hb : lrxDominant s = true ∧ s.link.bits.level = false) (hs : s.link.bits.sampled = false)
    (hd : ¬s.link.bits.phase + 1 = ticksOf s.tables.link.divisor / 2) :
    tickLine s = (noteLevel (setPhase 0 s), []) := by
  refine tickLine_ends rfl ?_ ho
  dsimp only; rw [if_neg hl, if_pos hb]; unfold transition; dsimp only
  rw [if_neg (by simp [hs]), if_neg hd]

/-- The station in which a sample taken in the tick of a transition has been taken. -/
def sampledAt (level : Bool) (s : State) : State :=
  { s with free := s.free + 1, link := { s.link with bits := { s.link.bits with
      phase := s.link.bits.phase + 1, sampled := true, sample := level } } }

/-- A transition in the tick of the sample: the bit time is dropped, or the sample is dominant and the bit time counts (log entry
33). -/
theorem tickLine_sampleOrDrop {s : State} (ho : s.station ≠ .offline)
    (hl : ¬s.link.bits.phase + 1 = ticksOf s.tables.link.divisor)
    (hb : lrxDominant s = true ∧ s.link.bits.level = false) (hs : s.link.bits.sampled = false)
    (hd : s.link.bits.phase + 1 = ticksOf s.tables.link.divisor / 2) :
    tickLine s = (noteLevel (setPhase 0 { s with free := s.free + 1 }), []) ∨
      tickLine s = (noteLevel (bitEnded (sampledAt true s)), sampleCommands s true ++ bitCommands (sampledAt true s)) := by
  cases hf : Config.firstOfTwo s.free with
  | false =>
    refine .inl (tickLine_ends rfl ?_ ho)
    dsimp only; rw [if_neg hl, if_pos hb]; unfold transition chooseFirst; dsimp only
    rw [if_neg (by simp [hs]), if_pos hd, hf]; rfl
  | true =>
    refine .inr (tickLine_ends rfl ?_ ho)
    dsimp only; rw [if_neg hl, if_pos hb]; unfold transition chooseFirst; dsimp only
    rw [if_neg (by simp [hs]), if_pos hd, hf, if_pos rfl]
    have due : SampleDue (setPhase (s.link.bits.phase + 1) { s with free := s.free + 1 }) := ⟨hd, hs⟩
    have level : lrxDominant (setPhase (s.link.bits.phase + 1) { s with free := s.free + 1 }) = true := hb.1
    rw [takeSample_due due, level]; dsimp only
    exact congrArg (fun p : State × List Instr => (p.1, sampleCommands s true ++ p.2)) (bitEnd_eq (sampledAt true s))

/-- Inside a bit time: the sample where it is due (R1). -/
theorem tickLine_inside {s : State} (ho : s.station ≠ .offline) (hl : ¬s.link.bits.phase + 1 = ticksOf s.tables.link.divisor)
    (hb : ¬(lrxDominant s = true ∧ s.link.bits.level = false)) :
    tickLine s = takeSample (noteLevel (setPhase (s.link.bits.phase + 1) s)) := by
  unfold tickLine; rw [if_neg ho]; dsimp only; rw [if_neg hl, if_neg hb]; simp

/-- What one tick of the line leaves in any case: it moves the timer, the receive buffer, the bit engine, the elapsed count and the
free values. -/
theorem tickLine_eq (s : State) : ∃ n, (tickLine s).1 = { s with
    acq := { s.acq with elapsed := (tickLine s).1.acq.elapsed }
    link := { s.link with
      timer := (tickLine s).1.link.timer, rxBuffer := (tickLine s).1.link.rxBuffer, bits := (tickLine s).1.link.bits }
    free := n } := by
  by_cases ho : s.station = .offline
  · have e : tickLine s = (s, []) := if_pos ho
    exact ⟨s.free, by rw [e]⟩
  by_cases hl : s.link.bits.phase + 1 = ticksOf s.tables.link.divisor
  · rw [tickLine_bitEnd ho (.inl hl)]; exact ⟨s.free, rfl⟩
  by_cases hb : lrxDominant s = true ∧ s.link.bits.level = false
  · by_cases hs : s.link.bits.sampled = true
    · rw [tickLine_bitEnd ho (.inr ⟨⟨hl, hb⟩, hs⟩)]; exact ⟨s.free, rfl⟩
    · have hs : s.link.bits.sampled = false := by simpa using hs
      by_cases hd : s.link.bits.phase + 1 = ticksOf s.tables.link.divisor / 2
      · rcases tickLine_sampleOrDrop ho hl hb hs hd with e | e <;> rw [e] <;> exact ⟨s.free + 1, rfl⟩
      · rw [tickLine_dropped ho hl hb hs hd]; exact ⟨s.free, rfl⟩
  · rw [tickLine_inside ho hl hb]
    by_cases hd : SampleDue (noteLevel (setPhase (s.link.bits.phase + 1) s))
    · rw [takeSample_due hd]; exact ⟨s.free, rfl⟩
    · rw [takeSample_idle hd]; exact ⟨s.free, rfl⟩

theorem origin_tickLine {c : Instr} {s : State} (h : c ∈ (tickLine s).2) : origin c = .line := by
  by_cases ho : s.station = .offline
  · have e : tickLine s = (s, []) := if_pos ho
    rw [e] at h; cases h
  by_cases hl : s.link.bits.phase + 1 = ticksOf s.tables.link.divisor
  · rw [tickLine_bitEnd ho (.inl hl)] at h; exact origin_bitCommands h
  by_cases hb : lrxDominant s = true ∧ s.link.bits.level = false
  · by_cases hs : s.link.bits.sampled = true
    · rw [tickLine_bitEnd ho (.inr ⟨⟨hl, hb⟩, hs⟩)] at h; exact origin_bitCommands h
    · have hs : s.link.bits.sampled = false := by simpa using hs
      by_cases hd : s.link.bits.phase + 1 = ticksOf s.tables.link.divisor / 2
      · rcases tickLine_sampleOrDrop ho hl hb hs hd with e | e <;> rw [e] at h
        · cases h
        · rcases List.mem_append.1 h with h | h
          · exact origin_sampleCommands h
          · exact origin_bitCommands h
      · rw [tickLine_dropped ho hl hb hs hd] at h; cases h
  · rw [tickLine_inside ho hl hb] at h
    by_cases hd : SampleDue (noteLevel (setPhase (s.link.bits.phase + 1) s))
    · rw [takeSample_due hd] at h; exact origin_sampleCommands h
    · rw [takeSample_idle hd] at h; cases h

end Sys2Proof.Machine
end

section
/-! SUPPORT. Which commands the end of a bit time brings, command by command (R3, R5 to R8, R12 to R14, R84). -/

namespace Sys2Proof.Machine

/-! ## The window of a timer value (R5) -/

theorem stationCount_le (s : State) : stationCount s ≤ 16 := by unfold stationCount countOf; split <;> omega

theorem windowAt_iff (k : StationNo) (s : State) (t : Nat) :
    windowAt s t = some k ↔ 16 ≤ t ∧ t < tailStart s ∧ (t - 16) / 176 = k.val := by
  have hc := stationCount_le s
  unfold windowAt tailStart
  split
  next h =>
    have hd : (t - 16) / 176 < 16 := by omega
    simp [Fin.ext_iff, Nat.mod_eq_of_lt hd, h]
  next h => simp only [reduceCtorEq, false_iff]; omega

theorem windowEnding_iff (k : StationNo) (s : State) (t : Nat) :
    windowEnding s t = some k ↔ k.val < stationCount s ∧ t = 16 + 176 * (k.val + 1) := by
  have hc := stationCount_le s
  unfold windowEnding tailStart
  split
  next h =>
    have hd : (t - 16) / 176 - 1 < 16 := by omega
    simp only [Option.some.injEq, Fin.ext_iff, Fin.val_ofNat, Nat.mod_eq_of_lt hd]
    omega
  next h => simp only [reduceCtorEq, false_iff]; omega

theorem timerRuns_of_onLink {s : State} (h : onLink s = true) : timerRuns s = true := by simp [timerRuns, h]

/-- Windows are received only while the timer runs (R6, R14, R16). -/
theorem timerRuns_of_receiving {s : State} (h : receiving s = true) : timerRuns s = true := by
  unfold receiving at h; unfold timerRuns
  cases hl : onLink s with
  | true => rfl
  | false =>
    rw [hl] at h
    simp only [Bool.false_or, Bool.and_eq_true, beq_iff_eq] at h
    simp [h.1, h.2]

theorem timerAfter_running {s : State} (h : timerRuns s = true) : timerAfter s = s.link.timer + 1 := if_pos h

/-! ## The run (R8) -/

theorem judged_iff (s : State) (start : Nat) :
    (runNow s).2 = some start ↔ s.link.bits.sample = true ∧ s.link.bits.run = .counting start 11 := by
  unfold runNow runAfter
  cases s.link.bits.sample with
  | false => simp
  | true =>
    cases s.link.bits.run with
    | between => simp
    | counting first n => by_cases h : n = 11 <;> simp [h]
    | passed => simp

theorem runNow_recessive {s : State} (h : s.link.bits.sample = false) : (runNow s).1 = .between := by
  unfold runNow runAfter; rw [h]; rfl

theorem runNow_first {s : State} (h : s.link.bits.sample = true) (hr : s.link.bits.run = .between) :
    (runNow s).1 = .counting s.link.timer 1 := by unfold runNow runAfter; rw [h, hr]; rfl

theorem runNow_counting {s : State} {start n : Nat} (h : s.link.bits.sample = true)
    (hr : s.link.bits.run = .counting start n) :
    (runNow s).1 = if n = 11 then .passed else .counting start (n + 1) := by
  unfold runNow runAfter; rw [h, hr]
  by_cases hn : n = 11 <;> simp [hn]

theorem runKind_disturbance (s : State) (start : Nat) :
    runKind s start = .disturbance ↔ onLink s = true ∧ 16 ≤ start ∧ start < tailStart s := by
  unfold runKind onLink
  cases s.station with
  | offline | listening => simp
  | joined | running | tripped =>
    by_cases ht : tailStart s ≤ start
    · simp [ht, ht.not_gt]
    · by_cases h : 16 ≤ start <;> simp [ht, h]; omega

theorem markAccepted_mem_bitCommands (s : State) (start : Nat) : .markAccepted start ∈ bitCommands s ↔
    s.link.bits.sample = true ∧ s.link.bits.run = .counting start 11 ∧ runKind s start = .mark := by
  simp only [mem_bitCommands, mem_runCommands, mem_rxCommands, mem_timerCommands, judged_iff, reduceCtorEq, and_false,
    exists_const, or_false, Instr.markAccepted.injEq]
  constructor
  · rintro ⟨first, ⟨hs, hr⟩, hk, rfl⟩; exact ⟨hs, hr, hk⟩
  · rintro ⟨hs, hr, hk⟩; exact ⟨start, ⟨hs, hr⟩, hk, rfl⟩

theorem lineDisturbance_mem_bitCommands (s : State) (k : StationNo) : .lineDisturbance k ∈ bitCommands s ↔
    onLink s = true ∧ s.link.bits.sample = true ∧
      ∃ start, s.link.bits.run = .counting start 11 ∧ 16 ≤ start ∧ start < tailStart s ∧ (start - 16) / 176 = k.val := by
  simp only [mem_bitCommands, mem_runCommands, mem_rxCommands, mem_timerCommands, judged_iff, reduceCtorEq, and_false,
    exists_const, or_false, false_or, Instr.lineDisturbance.injEq, runKind_disturbance, windowAt_iff]
  constructor
  · rintro ⟨start, ⟨hs, hr⟩, ⟨hl, -, -⟩, _, hw, rfl⟩; exact ⟨hl, hs, start, hr, hw⟩
  · rintro ⟨hl, hs, start, hr, hw⟩; exact ⟨start, ⟨hs, hr⟩, ⟨hl, hw.1, hw.2.1⟩, k, hw, rfl⟩

theorem any_isMark (q : List Instr) : q.any isMark = true ↔ ∃ start, Instr.markAccepted start ∈ q := by
  rw [List.any_eq_true]
  constructor
  · rintro ⟨c, hc, hm⟩
    cases c with
    | markAccepted start => exact ⟨start, hc⟩
    | _ => cases hm
  · rintro ⟨start, h⟩; exact ⟨_, h, rfl⟩

/-- The marks of a bit time are those of its run. -/
theorem unmarked_iff (s : State) :
    (runCommands s (runNow s).2).any isMark = false ↔ ∀ start, .markAccepted start ∉ bitCommands s := by
  rw [← Bool.not_eq_true, any_isMark, not_exists]
  refine forall_congr' fun start => not_congr ?_
  rw [markAccepted_mem_bitCommands]
  simp only [mem_runCommands, judged_iff, reduceCtorEq, and_false, exists_const, or_false, Instr.markAccepted.injEq]
  constructor
  · rintro ⟨first, ⟨hs, hr⟩, hk, rfl⟩; exact ⟨hs, hr, hk⟩
  · rintro ⟨hs, hr, hk⟩; exact ⟨start, ⟨hs, hr⟩, hk, rfl⟩

/-! ## The own mark and the own frame (R7, R12) -/

theorem markDriveEnd_mem_bitCommands (s : State) : .markDriveEnd ∈ bitCommands s ↔ drivenAfter s = 12 := by
  simp only [mem_bitCommands, mem_runCommands, mem_rxCommands, mem_timerCommands, reduceCtorEq, and_false, exists_const,
    or_false, false_or, and_true]

theorem txAfter_sending {s : State} (t : Nat) (h : s.link.bits.sending = true) :
    (txAfter s t).1 = s.link.bits.txBits.tail ∧ ((txAfter s t).2 = true ↔ s.link.bits.txBits.tail ≠ []) := by
  unfold txAfter; simp [h]

theorem txAfter_silent {s : State} (t : Nat) (h : s.link.bits.sending = false) :
    (txAfter s t).1 = s.link.bits.txBits ∧
      ((txAfter s t).2 = true ↔ onLink s = true ∧ s.link.bits.txBits ≠ [] ∧ t = 16 + 176 * s.number.val + 8) := by
  unfold txAfter windowStart; simp [h, and_assoc]

/-- No sample's decision comes with the end of a bit time. -/
theorem deferredMarkStart_not_mem_bitCommands (s : State) : Instr.deferredMarkStart ∉ bitCommands s := by
  simp [mem_bitCommands, mem_runCommands, mem_rxCommands, mem_timerCommands]

theorem readbackMismatch_not_mem_bitCommands (s : State) : Instr.readbackMismatch ∉ bitCommands s := by
  simp [mem_bitCommands, mem_runCommands, mem_rxCommands, mem_timerCommands]

/-- After a dominant sample the end of a bit time does not begin the own mark. -/
theorem timerReachesL_not_mem_of_dominant {s : State} (h : s.link.bits.sample = true) (d : Bool) :
    Instr.timerReachesL d ∉ bitCommands s := by
  simp [mem_bitCommands, mem_runCommands, mem_rxCommands, mem_timerCommands, h]

/-! ## The timer and the lone expiry, where no mark is accepted (R5, R6, R7, R12, R84) -/

section
variable {s : State} (hm : ∀ start, .markAccepted start ∉ bitCommands s)
include hm

theorem windowEnd_mem_bitCommands (k : StationNo) : .windowEnd k ∈ bitCommands s ↔
    receiving s = true ∧ k.val < stationCount s ∧ s.link.timer + 1 = 16 + 176 * (k.val + 1) := by
  simp only [mem_bitCommands, (unmarked_iff s).2 hm, mem_runCommands, mem_rxCommands, mem_timerCommands, reduceCtorEq,
    and_false, exists_const, or_false, false_or, Instr.windowEnd.injEq, exists_eq_right', true_and, windowEnding_iff]
  constructor
  · rintro ⟨hr, hx, hw, ht⟩; exact ⟨hx, hw, timerAfter_running hr ▸ ht⟩
  · rintro ⟨hx, hw, ht⟩
    exact ⟨timerRuns_of_receiving hx, hx, hw, (timerAfter_running (timerRuns_of_receiving hx)).trans ht⟩

theorem ownWindowStart_mem_bitCommands : .ownWindowStart ∈ bitCommands s ↔
    onLink s = true ∧ s.link.timer + 1 = 16 + 176 * s.number.val := by
  simp only [mem_bitCommands, (unmarked_iff s).2 hm, mem_runCommands, mem_rxCommands, mem_timerCommands, reduceCtorEq,
    and_false, exists_const, or_false, false_or, and_true, true_and, windowStart]
  constructor
  · rintro ⟨hr, hl, ht⟩; exact ⟨hl, timerAfter_running hr ▸ ht⟩
  · rintro ⟨hl, ht⟩
    exact ⟨timerRuns_of_onLink hl, hl, (timerAfter_running (timerRuns_of_onLink hl)).trans ht⟩

theorem timerReachesL_mem_bitCommands (d : Bool) : .timerReachesL d ∈ bitCommands s ↔
    onLink s = true ∧ s.link.mark = .quiet ∧ s.link.timer + 1 = cycleLength s ∧ lrxDominant (bitEnded s) = false ∧
      s.link.bits.sample = false ∧ d = false := by
  simp only [mem_bitCommands, (unmarked_iff s).2 hm, mem_runCommands, mem_rxCommands, mem_timerCommands, reduceCtorEq,
    and_false, exists_const, or_false, false_or, true_and, Instr.timerReachesL.injEq, Bool.and_eq_true, Bool.not_eq_true']
  constructor
  · rintro ⟨hr, ⟨hl, hq, ht, hd, hs⟩, rfl⟩; exact ⟨hl, hq, timerAfter_running hr ▸ ht, hd, hs, rfl⟩
  · rintro ⟨hl, hq, ht, hd, hs, rfl⟩
    exact ⟨timerRuns_of_onLink hl, ⟨hl, hq, (timerAfter_running (timerRuns_of_onLink hl)).trans ht, hd, hs⟩, rfl⟩

theorem markTimeout_mem_bitCommands : .markTimeout ∈ bitCommands s ↔
    timerRuns s = true ∧ s.link.timer + 1 = 2 * cycleLength s := by
  simp only [mem_bitCommands, (unmarked_iff s).2 hm, mem_runCommands, mem_rxCommands, mem_timerCommands, reduceCtorEq,
    and_false, exists_const, or_false, false_or, true_and, and_true]
  exact and_congr_right fun hr => by rw [timerAfter_running hr]

theorem loneStart_mem_bitCommands : .loneStart ∈ bitCommands s ↔
    s.station = .listening ∧ s.acq.phase = .seek ∧ 4 * cycleLength s ≤ s.acq.elapsed + 1 ∧
      lrxDominant (bitEnded s) = false := by
  simp only [mem_bitCommands, (unmarked_iff s).2 hm, mem_runCommands, mem_rxCommands, mem_timerCommands, reduceCtorEq,
    and_false, exists_const, or_false, false_or, true_and, and_true, and_assoc]
  refine and_congr_right fun hl => and_congr_right fun hs => and_congr_left fun _ => ?_
  rw [elapsedAfter, if_pos ⟨hl, hs⟩]; omega

/-! ## The receiver (R3, R14) -/

theorem receptionError_mem_bitCommands (k : StationNo) :
    .receptionError k ∈ bitCommands s ↔ windowNow s = some k ∧ (received s).2.2 = .error := by
  simp only [mem_bitCommands, (unmarked_iff s).2 hm, mem_runCommands, mem_rxCommands, mem_timerCommands, reduceCtorEq,
    and_false, exists_const, or_false, false_or, true_and, Instr.receptionError.injEq]
  constructor
  · rintro ⟨_, hw, he, rfl⟩; exact ⟨hw, he⟩
  · rintro ⟨hw, he⟩; exact ⟨k, hw, he, rfl⟩

theorem frameReceived_mem_bitCommands (k : StationNo) (bytes : List Byte) : .frameReceived k bytes ∈ bitCommands s ↔
    windowNow s = some k ∧ (received s).2.2 = .frame ∧ (received s).2.1 = bytes := by
  simp only [mem_bitCommands, (unmarked_iff s).2 hm, mem_runCommands, mem_rxCommands, mem_timerCommands, reduceCtorEq,
    and_false, exists_const, or_false, false_or, true_and, Instr.frameReceived.injEq]
  constructor
  · rintro ⟨_, hw, he, rfl, rfl⟩; exact ⟨hw, he, rfl⟩
  · rintro ⟨hw, he, rfl⟩; exact ⟨k, hw, he, rfl, rfl⟩

end

theorem windowNow_iff (s : State) (k : StationNo) :
    windowNow s = some k ↔ receiving s = true ∧ windowAt s s.link.timer = some k := by
  unfold windowNow; split <;> simp_all

theorem received_of_window {s : State} {k : StationNo} (h : windowNow s = some k) : received s =
    rxAfter s.link.bits.sample s.link.bits.previous (s.link.timer - windowStart k) s.link.bits.rx s.link.rxBuffer := by
  unfold received; rw [h]

/-- A byte that is done ends the frame, or lets it go on (R3). -/
theorem byteDone_event (bytes : List Byte) : (byteDone bytes).2 ≠ .error ∧
    ((byteDone bytes).2 = .frame ↔ bytes ≠ [] ∧
      (match frameLength (bytes.headD 0) with | none => True | some n => n ≤ bytes.length)) := by
  unfold byteDone
  cases bytes with
  | nil => simp
  | cons first rest =>
    simp only [List.headD_cons]
    cases frameLength first with
    | none => simp
    | some n =>
      by_cases h : n ≤ (first :: rest).length
      · simp [List.length_cons ▸ h]
      · simp only [if_neg h]; simp [List.length_cons ▸ h]

/-- A reception error is a start bit out of place, a dominant stop bit, or no start bit after three recessive ones (R14). -/
theorem rxAfter_error (sample previous : Bool) (offset : Nat) (phase : RxPhase) (bytes : List Byte) :
    (rxAfter sample previous offset phase bytes).2.2 = .error ↔
      phase = .hunt ∧ sample = true ∧ previous = false ∧ ¬(4 ≤ offset ∧ offset ≤ 12) ∨
        sample = true ∧ (∃ bits, phase = .stop bits) ∨ sample = false ∧ phase = .gap 2 := by
  cases phase with
  | hunt =>
    by_cases h : sample = true ∧ previous = false
    · by_cases ho : 4 ≤ offset ∧ offset ≤ 12 <;> simp [rxAfter, h, ho]
    · simp only [rxAfter, if_neg h]; simp; tauto
  | data bits => by_cases h : bits.length = 7 <;> simp [rxAfter, h]
  | stop bits =>
    cases sample with
    | true => simp [rxAfter]
    | false => simpa [rxAfter] using (byteDone_event (bytes ++ [byteOf bits])).1
  | gap n =>
    cases sample with
    | true => simp [rxAfter]
    | false => by_cases h : n = 2 <;> simp [rxAfter, h]
  | done => simp [rxAfter]

/-- A frame is complete at the recessive stop bit of its last byte (R3, R14). -/
theorem rxAfter_frame (sample previous : Bool) (offset : Nat) (phase : RxPhase) (bytes result : List Byte) :
    ((rxAfter sample previous offset phase bytes).2.2 = .frame ∧ (rxAfter sample previous offset phase bytes).2.1 = result) ↔
      sample = false ∧ ∃ bits, phase = .stop bits ∧ result = bytes ++ [byteOf bits] ∧
        (match frameLength (result.headD 0) with | none => True | some n => n ≤ result.length) := by
  cases phase with
  | hunt =>
    by_cases h : sample = true ∧ previous = false
    · by_cases ho : 4 ≤ offset ∧ offset ≤ 12 <;> simp [rxAfter, h, ho]
    · simp [rxAfter, if_neg h]
  | data bits => by_cases h : bits.length = 7 <;> simp [rxAfter, h]
  | stop bits =>
    cases sample with
    | true => simp [rxAfter]
    | false =>
      have hb := (byteDone_event (bytes ++ [byteOf bits])).2
      constructor
      · rintro ⟨hf, rfl⟩; exact ⟨rfl, bits, rfl, rfl, (hb.1 hf).2⟩
      · rintro ⟨-, _, hp, rfl, hn⟩
        obtain rfl := RxPhase.stop.inj hp
        exact ⟨hb.2 ⟨by simp, hn⟩, rfl⟩
  | gap n =>
    cases sample with
    | true => simp [rxAfter]
    | false => by_cases h : n = 2 <;> simp [rxAfter, h]
  | done => simp [rxAfter]

end Sys2Proof.Machine
end

section
/-! SUPPORT. The tick as one equation, the part that brings each command, and the carrier, the gates, the filters and the settle in
it (R95, R111, R112, R132, R144). -/

namespace Sys2Proof.Machine

/-! ## The port and the line in a tick -/

/-- The port of a tick moves its own record and the free values. -/
theorem tickPort_eq (s : State) : ∃ p n, (tickPort s).1 = { s with host := { s.host with port := p }, free := n } := by
  have sample (u : State) : ∃ p, (sampleBit u).1 = { u with host := { u.host with port := p } } := by
    unfold sampleBit; dsimp only; split <;> exact ⟨_, rfl⟩
  have shift (u : State) : ∃ p n, shiftOut u = { u with host := { u.host with port := p }, free := n } := by
    unfold shiftOut; split
    · exact ⟨_, u.free, rfl⟩
    · exact ⟨_, _, rfl⟩
    · dsimp only; split <;> exact ⟨_, u.free, rfl⟩
  unfold tickPort; dsimp only
  split
  · exact ⟨_, s.free, rfl⟩
  split
  · exact ⟨_, s.free, rfl⟩
  split
  · exact ⟨_, s.free, rfl⟩
  split
  · obtain ⟨p, hp⟩ := sample (setPort { s.host.port with clock := s.pins.sck } s)
    rw [hp]; exact ⟨p, s.free, rfl⟩
  · obtain ⟨p, n, hp⟩ := shift (setPort { s.host.port with clock := s.pins.sck } s)
    dsimp only; rw [hp]; exact ⟨p, n, rfl⟩

/-- The station that the line of a tick finds: a tick has begun, and the port has moved. -/
theorem tickPort_beginTick (s : State) : ∃ p n, (tickPort (beginTick s)).1 = { s with
    host := { s.host with port := p }
    now := { shown := pinLevels s, entered := false, arrived := false, waiting := [], left := none }
    free := n } := tickPort_eq (beginTick s)

/-- What port and line leave. -/
theorem tickLinked_eq (s : State) : ∃ p n, tickLinked s = { s with
    acq := { s.acq with elapsed := (tickLinked s).acq.elapsed }
    link := { s.link with
      timer := (tickLinked s).link.timer, rxBuffer := (tickLinked s).link.rxBuffer, bits := (tickLinked s).link.bits }
    host := { s.host with port := p }
    now := { shown := pinLevels s, entered := false, arrived := false, waiting := [], left := none }
    free := n } := by
  obtain ⟨p, m, hp⟩ := tickPort_beginTick s
  obtain ⟨n, hn⟩ := tickLine_eq (tickPort (beginTick s)).1
  have e : tickLinked s = (tickLine (tickPort (beginTick s)).1).1 := rfl
  rw [← e, hp] at hn
  exact ⟨p, n, hn⟩

/-! ## The carrier, the gates, the filters and the settle -/

/-- The carrier one tick on (R95). -/
def carrierAfter (s : State) : Carrier :=
  { s.carrier with
    position := nextPosition s.carrier.period s.carrier.position, setThisTick := false, rerun := s.carrier.rerun - 1 }

/-- The carrier signals a load point by its advance (R100, R104). -/
def Loads (s : State) (p : LoadPosition) : Prop :=
  s.carrier.rerun = 0 ∧ settingHas s.carrier.loadSetting p = true ∧
    (match p with
      | .valley => nextPosition s.carrier.period s.carrier.position = 0
      | .peak => nextPosition s.carrier.period s.carrier.position ≠ 0 ∧
        nextPosition s.carrier.period s.carrier.position = s.carrier.period / 2)

/-- A leg's demand changes with the advance (R111). -/
def Crosses (s : State) (leg : Leg) : Prop :=
  demand (s.gate.legs.get leg).mode (s.gate.legs.get leg).compare (carrierNow s) ≠
    demand (s.gate.legs.get leg).mode (s.gate.legs.get leg).compare
      (carrierValue s.carrier.shape s.carrier.period (nextPosition s.carrier.period s.carrier.position))

/-- The loads that an advance brings. -/
def loadsDue (s : State) : List Instr :=
  if s.carrier.rerun = 0 then loadCommands (carrierAfter s) (nextPosition s.carrier.period s.carrier.position) else []

theorem mem_loadsDue (s : State) (c : Instr) : c ∈ loadsDue s ↔ ∃ p, Loads s p ∧ c = .loadPoint p := by
  unfold loadsDue loadCommands Loads carrierAfter
  by_cases h : s.carrier.rerun = 0
  · simp only [h, if_true, List.mem_append, List.mem_ite_nil_right, List.mem_singleton, true_and]
    constructor
    · rintro (⟨⟨hn, hs⟩, rfl⟩ | ⟨⟨hn, hp, hs⟩, rfl⟩)
      · exact ⟨.valley, ⟨hs, hn⟩, rfl⟩
      · exact ⟨.peak, ⟨hs, hn, hp⟩, rfl⟩
    · rintro ⟨p, ⟨hs, hn⟩, rfl⟩
      cases p with
      | valley => exact .inl ⟨⟨hn, hs⟩, rfl⟩
      | peak => exact .inr ⟨⟨hn.1, hn.2, hs⟩, rfl⟩
  · simp [h]

theorem tickCarrier_stopped {s : State} (h : s.carrier.running = false) : tickCarrier s = (s, []) := by
  unfold tickCarrier; rw [h]; rfl

theorem tickCarrier_state {s : State} (h : s.carrier.running = true) :
    (tickCarrier s).1 = { s with carrier := carrierAfter s } := by
  unfold tickCarrier; rw [if_pos h]; rfl

/-- An advancing carrier brings its load points; where there is none, a crossing of some leg. -/
theorem mem_tickCarrier {s : State} (h : s.carrier.running = true) (c : Instr) : c ∈ (tickCarrier s).2 ↔
    (∃ p, Loads s p ∧ c = .loadPoint p) ∨
      (∀ p, ¬Loads s p) ∧ (∃ leg, Crosses s leg) ∧
        c = .compareCrossing (nextPosition s.carrier.period s.carrier.position) := by
  have e : (tickCarrier s).2 = if (loadsDue s).isEmpty then
      (if (crosses s.gate.legs.a (carrierNow s) (carrierNow { s with carrier := carrierAfter s })
        || crosses s.gate.legs.b (carrierNow s) (carrierNow { s with carrier := carrierAfter s })
        || crosses s.gate.legs.c (carrierNow s) (carrierNow { s with carrier := carrierAfter s }))
        then [.compareCrossing (nextPosition s.carrier.period s.carrier.position)] else []) else loadsDue s := by
    unfold tickCarrier; rw [if_pos h]; rfl
  have crossing : (∃ leg, Crosses s leg) ↔
      (crosses s.gate.legs.a (carrierNow s) (carrierNow { s with carrier := carrierAfter s })
        || crosses s.gate.legs.b (carrierNow s) (carrierNow { s with carrier := carrierAfter s })
        || crosses s.gate.legs.c (carrierNow s) (carrierNow { s with carrier := carrierAfter s })) = true := by
    simp only [crosses, Bool.or_eq_true, bne_iff_ne]
    constructor
    · rintro ⟨leg, hl⟩
      cases leg with
      | a => exact .inl (.inl hl)
      | b => exact .inl (.inr hl)
      | c => exact .inr hl
    · rintro ((hl | hl) | hl)
      · exact ⟨.a, hl⟩
      · exact ⟨.b, hl⟩
      · exact ⟨.c, hl⟩
  rw [e, ← mem_loadsDue, crossing]
  by_cases hn : loadsDue s = []
  · have none (p : LoadPosition) : ¬Loads s p := fun hp => by
      simpa [hn] using (mem_loadsDue s (.loadPoint p)).2 ⟨p, hp, rfl⟩
    simp [hn, none]
  · obtain ⟨d, hd⟩ := List.exists_mem_of_ne_nil _ hn
    obtain ⟨p, hp, -⟩ := (mem_loadsDue s d).1 hd
    rw [if_neg (by simpa using hn)]
    exact ⟨.inl, fun h => h.elim id fun hx => absurd hp (hx.1 p)⟩

theorem filterStep_eq (level : Bool) (f : Filter) :
    filterStep level f = { f with run := if level = f.asserted then 0 else f.run + 1 } := by
  unfold filterStep; split <;> rfl

theorem tickSettle_eq (s : State) : (tickSettle s).1 = { s with
    trip := { s.trip with settled := if s.trip.settling then s.trip.settled + 1 else s.trip.settled } } := by
  unfold tickSettle; split
  · rfl
  · rfl

theorem mem_tickSettle (s : State) (c : Instr) : c ∈ (tickSettle s).2 ↔
    s.trip.settling = true ∧ s.trip.settled + 1 = 40 ∧ c = .clearSample (trpnLow s) := by
  unfold tickSettle; split
  · rename_i h; simp [h]
  · rename_i h; simp [h]

theorem orderGroups_eq (groups : List (List Instr)) (s : State) : ∃ n, (orderGroups groups s).2 = { s with free := n } := by
  unfold orderGroups; dsimp only; split
  · exact ⟨s.free, rfl⟩
  · exact ⟨_, rfl⟩

theorem tickMoved_eq (s : State) : tickMoved s = { tickLinked s with
    gate := { (tickLinked s).gate with legs := (tickLinked s).gate.legs.map countStep }
    carrier := (tickMoved s).carrier } := by
  unfold tickMoved
  split
  · rfl
  · cases h : (tickGates (tickLinked s)).1.carrier.running with
    | false => rw [tickCarrier_stopped h]; rfl
    | true => rw [tickCarrier_state h]; rfl

/-- What port and line leave, a tick moves the gates' counts, the carrier and the inputs of the Trip Logic. -/
theorem tick_after_line {s : State} (hp : s.pins.rstn = true) : ∃ n, tick s = { tickLinked s with
    gate := { (tickLinked s).gate with legs := (tickLinked s).gate.legs.map countStep }
    carrier := (tickMoved s).carrier
    trip := { (tickLinked s).trip with
      faults := Vector.ofFn fun i : Fin 4 => filterStep (tickLinked s).pins.faults[i] (tickLinked s).trip.faults[i]
      tripLine := filterStep (trpnLow (tickLinked s)) (tickLinked s).trip.tripLine
      settled := if (tickLinked s).trip.settling then (tickLinked s).trip.settled + 1 else (tickLinked s).trip.settled }
    free := n
    pending := (tick s).pending } := by
  obtain ⟨n, hn⟩ := orderGroups_eq (tickGroups s) (tickSettle (tickFilters (tickMoved s)).1).1
  have e : tick s = { (orderGroups (tickGroups s) (tickSettle (tickFilters (tickMoved s)).1).1).2 with
      pending := (tick s).pending } := by rw [tick_eq s hp]
  rw [hn, tickSettle_eq] at e
  generalize (tick s).pending = q at e ⊢
  rw [tickMoved_eq] at e
  exact ⟨n, e⟩

/-! ## The part of the tick that brings a command -/

/-- The commands that each part of a tick brings. -/
def tickPart (s : State) : Origin → List Instr
  | .host => (tickPort (beginTick s)).2
  | .line => (tickLine (tickPort (beginTick s)).1).2
  | .carrier => if tickMarks s then [] else (tickCarrier (tickGates (tickLinked s)).1).2
  | .gate => (tickGates (tickLinked s)).2
  | .level => (tickFilters (tickMoved s)).2.flatten
  | .settle => (tickSettle (tickFilters (tickMoved s)).1).2
  | .outside => []

theorem mem_tickGates (s : State) (c : Instr) : c ∈ (tickGates s).2 ↔ ∃ leg side,
    (s.gate.legs.get leg).pending = some side ∧ s.gate.deadTime ≤ (s.gate.legs.get leg).count + 1 ∧
      c = .deadTimeElapsed leg side := by
  have due (leg : Leg) (l : LegState) : c ∈ gateDue s.gate.deadTime leg (countStep l) ↔
      ∃ side, l.pending = some side ∧ s.gate.deadTime ≤ l.count + 1 ∧ c = .deadTimeElapsed leg side := by
    obtain ⟨-, hpend, -, -, hcount⟩ := countStep_spec l
    rw [mem_gateDue, hpend, hcount]
    refine exists_congr fun side => and_congr_right fun h => ?_
    simp [h]
  have e : (tickGates s).2 = gateDue s.gate.deadTime .a (countStep s.gate.legs.a) ++
    gateDue s.gate.deadTime .b (countStep s.gate.legs.b) ++ gateDue s.gate.deadTime .c (countStep s.gate.legs.c) := rfl
  rw [e, List.mem_append, List.mem_append, due, due, due]
  constructor
  · rintro ((h | h) | h)
    · exact ⟨.a, h⟩
    · exact ⟨.b, h⟩
    · exact ⟨.c, h⟩
  · rintro ⟨leg, h⟩
    cases leg with
    | a => exact .inl (.inl h)
    | b => exact .inl (.inr h)
    | c => exact .inr h

/-- A filtered input falls due from its length on (R132). -/
theorem mem_tickFilters (s : State) (c : Instr) : c ∈ (tickFilters s).2.flatten ↔
    (∃ i : Fin 4, filterTicks s ≤ (filterStep s.pins.faults[i] s.trip.faults[i]).run ∧
        c = .filteredLevelChange (.flt i)) ∨
      filterTicks s ≤ (filterStep (trpnLow s) s.trip.tripLine).run ∧ c = .filteredLevelChange .trpn := by
  have all (i : Fin 4) : i ∈ faultInputs := by revert i; decide
  unfold tickFilters filterDue
  simp [List.mem_flatten, all]

theorem origin_tickPart {s : State} {o : Origin} {c : Instr} (h : c ∈ tickPart s o) : origin c = o := by
  cases o with
  | host => exact origin_tickPort h
  | line => exact origin_tickLine h
  | carrier =>
    replace h : c ∈ if tickMarks s then [] else (tickCarrier (tickGates (tickLinked s)).1).2 := h
    split at h
    · cases h
    · cases hr : (tickGates (tickLinked s)).1.carrier.running with
      | false => rw [tickCarrier_stopped hr] at h; cases h
      | true =>
        rcases (mem_tickCarrier hr c).1 h with ⟨_, -, rfl⟩ | ⟨-, -, rfl⟩ <;> rfl
  | gate => obtain ⟨_, _, -, -, rfl⟩ := (mem_tickGates _ c).1 h; rfl
  | level => rcases (mem_tickFilters _ c).1 h with ⟨_, -, rfl⟩ | ⟨-, rfl⟩ <;> rfl
  | settle => obtain ⟨-, -, rfl⟩ := (mem_tickSettle _ c).1 h; rfl
  | outside => cases h

/-- A command falls due in a tick exactly where the part that it comes from brings it. -/
theorem mem_tick_iff {s : State} (hp : s.pins.rstn = true) (c : Instr) :
    c ∈ (tick s).pending ↔ c ∈ tickPart s (origin c) := by
  have parts : c ∈ (tick s).pending ↔ ∃ o, c ∈ tickPart s o := by
    rw [mem_tick s hp]
    constructor
    · rintro (⟨g, hg, hc⟩ | hc)
      · rcases List.mem_append.1 hg with hg | hg
        · exact ⟨.level, List.mem_flatten.2 ⟨g, hg, hc⟩⟩
        · simp only [List.mem_cons, List.not_mem_nil, or_false] at hg
          rcases hg with rfl | rfl | rfl | rfl
          · exact ⟨.settle, hc⟩
          · exact ⟨.host, hc⟩
          · exact ⟨.line, hc⟩
          · exact ⟨.carrier, hc⟩
      · exact ⟨.gate, hc⟩
    · rintro ⟨o, hc⟩
      have group {g : List Instr} (h : g = tickPart s .settle ∨ g = tickPart s .host ∨ g = tickPart s .line ∨
          g = tickPart s .carrier) : g ∈ tickGroups s :=
        List.mem_append_right _ (by simpa [tickPart] using h)
      cases o with
      | host => exact .inl ⟨_, group (.inr (.inl rfl)), hc⟩
      | line => exact .inl ⟨_, group (.inr (.inr (.inl rfl))), hc⟩
      | carrier => exact .inl ⟨_, group (.inr (.inr (.inr rfl))), hc⟩
      | settle => exact .inl ⟨_, group (.inl rfl), hc⟩
      | gate => exact .inr hc
      | level =>
        obtain ⟨g, hg, hc⟩ := List.mem_flatten.1 hc
        exact .inl ⟨g, List.mem_append_left _ hg, hc⟩
      | outside => cases hc
  rw [parts]
  exact ⟨fun ⟨_, h⟩ => (origin_tickPart h).symm ▸ h, fun h => ⟨_, h⟩⟩

/-- The tick accepts a mark exactly where the line brings one. -/
theorem tickMarks_iff {s : State} (hp : s.pins.rstn = true) :
    tickMarks s = true ↔ ∃ start, Instr.markAccepted start ∈ (tick s).pending :=
  (any_isMark _).trans (exists_congr fun start => (mem_tick_iff hp (.markAccepted start)).symm)

end Sys2Proof.Machine
end

section
/-! O2. A step on an empty queue is one tick (R1, R3, R5 to R8, R12 to R14, R84, R95, R112, R132, R144). -/

namespace Sys2Proof.Machine

/-! ## The parts of a tick, against the state before it -/

/-- The carrier advances in this tick: it runs, and no mark re-phases it (R95, R100). -/
def Advances (s : State) : Prop := s.carrier.running = true ∧ tickMarks s = false

theorem tickGates_linked (s : State) : ∃ p n a l, (tickGates (tickLinked s)).1 = { s with
    acq := a
    link := l
    host := { s.host with port := p }
    now := { shown := pinLevels s, entered := false, arrived := false, waiting := [], left := none }
    gate := { s.gate with legs := s.gate.legs.map countStep }
    free := n } := by
  obtain ⟨p, n, h⟩ := tickLinked_eq s
  rw [h]
  exact ⟨p, n, _, _, rfl⟩

theorem tick_carrier {s : State} (hp : s.pins.rstn = true) :
    (Advances s → (tick s).carrier = carrierAfter s) ∧ (¬Advances s → (tick s).carrier = s.carrier) := by
  obtain ⟨n, hn⟩ := tick_after_line hp
  have e : (tick s).carrier = (tickMoved s).carrier := by rw [hn]
  have hg : (tickGates (tickLinked s)).1.carrier = s.carrier := by
    obtain ⟨_, _, _, _, hg⟩ := tickGates_linked s
    rw [hg]
  rw [e, tickMoved]
  refine ⟨fun ⟨hr, hm⟩ => ?_, fun h => ?_⟩
  · rw [hm, if_neg Bool.false_ne_true, tickCarrier_state (by rw [hg]; exact hr), carrierAfter, hg]; rfl
  · cases hm : tickMarks s with
    | true => exact hg
    | false =>
      have hr : s.carrier.running = false := Bool.eq_false_iff.2 fun hr => h ⟨hr, hm⟩
      rw [if_neg Bool.false_ne_true, tickCarrier_stopped (by rw [hg]; exact hr), hg]

/-- What a tick brings of the carrier: its load points, or a crossing. -/
theorem mem_tick_carrier {s : State} (hp : s.pins.rstn = true) {c : Instr} (hc : origin c = .carrier) :
    c ∈ (tick s).pending ↔ Advances s ∧ ((∃ p, Loads s p ∧ c = .loadPoint p) ∨
      (∀ p, ¬Loads s p) ∧ (∃ leg, Crosses s leg) ∧
        c = .compareCrossing (nextPosition s.carrier.period s.carrier.position)) := by
  obtain ⟨p, m, a, l, hg⟩ := tickGates_linked s
  have crosses (leg : Leg) : Crosses (tickGates (tickLinked s)).1 leg ↔ Crosses s leg := by
    obtain ⟨-, -, hmode, hcompare, -⟩ := countStep_spec (s.gate.legs.get leg)
    rw [hg]; unfold Crosses carrierNow; dsimp only
    rw [get_map, hmode, hcompare]
  rw [mem_tick_iff hp, hc]
  show c ∈ (if tickMarks s then [] else (tickCarrier (tickGates (tickLinked s)).1).2) ↔ _
  unfold Advances
  cases hm : tickMarks s with
  | true => simp
  | false =>
    cases hr : s.carrier.running with
    | false => rw [if_neg Bool.false_ne_true, tickCarrier_stopped (by rw [hg]; exact hr)]; simp
    | true =>
      rw [if_neg Bool.false_ne_true, mem_tickCarrier (by rw [hg]; exact hr)]
      simp only [crosses, and_self, true_and]
      rw [hg]; rfl

theorem advances_iff {s : State} (hp : s.pins.rstn = true) :
    Advances s ↔ s.carrier.running = true ∧ ¬∃ start, Instr.markAccepted start ∈ (tick s).pending := by
  rw [← tickMarks_iff hp, Bool.not_eq_true]; rfl

theorem loadPoint_mem_tick {s : State} (hp : s.pins.rstn = true) (p : LoadPosition) :
    .loadPoint p ∈ (tick s).pending ↔ Advances s ∧ Loads s p := by
  rw [mem_tick_carrier hp rfl]; simp

theorem compareCrossing_mem_tick {s : State} (hp : s.pins.rstn = true) (a : Nat) :
    .compareCrossing a ∈ (tick s).pending ↔ Advances s ∧ (∀ p, ¬Loads s p) ∧
      a = nextPosition s.carrier.period s.carrier.position ∧
      ∃ leg, demand (s.gate.legs.get leg).mode (s.gate.legs.get leg).compare (carrierNow s) ≠
        demand (s.gate.legs.get leg).mode (s.gate.legs.get leg).compare (carrierNow (tick s)) := by
  rw [mem_tick_carrier hp rfl]
  refine and_congr_right fun h => ?_
  have hnow : carrierNow (tick s) =
      carrierValue s.carrier.shape s.carrier.period (nextPosition s.carrier.period s.carrier.position) := by
    unfold carrierNow; rw [(tick_carrier hp).1 h]; rfl
  rw [hnow]
  constructor
  · rintro (⟨_, -, he⟩ | ⟨hnone, hcross, he⟩)
    · cases he
    · exact ⟨hnone, Instr.compareCrossing.inj he, hcross⟩
  · rintro ⟨hnone, rfl, hcross⟩
    exact .inr ⟨hnone, hcross, rfl⟩

theorem tick_gates {s : State} (hp : s.pins.rstn = true) (leg : Leg) :
    (tick s).gate.legs.get leg = (if (s.gate.legs.get leg).pending = none then s.gate.legs.get leg
      else { s.gate.legs.get leg with count := (s.gate.legs.get leg).count + 1 }) ∧
    ∀ side, Instr.deadTimeElapsed leg side ∈ (tick s).pending ↔
      (s.gate.legs.get leg).pending = some side ∧ s.gate.deadTime ≤ (s.gate.legs.get leg).count + 1 := by
  obtain ⟨p, m, hl⟩ := tickLinked_eq s
  obtain ⟨n, hn⟩ := tick_after_line hp
  refine ⟨?_, fun side => ?_⟩
  · have e : (tick s).gate.legs = s.gate.legs.map countStep := by rw [hn, hl]
    rw [e, get_map]
    generalize s.gate.legs.get leg = l
    unfold countStep
    cases hx : l.pending <;> simp [hx]
  · rw [mem_tick_iff hp]
    refine (mem_tickGates (tickLinked s) _).trans ?_
    rw [hl]
    constructor
    · rintro ⟨_, _, hpend, hd, he⟩
      obtain ⟨rfl, rfl⟩ := Instr.deadTimeElapsed.inj he
      exact ⟨hpend, hd⟩
    · rintro ⟨hpend, hd⟩; exact ⟨leg, side, hpend, hd, rfl⟩

theorem tick_filters {s : State} (hp : s.pins.rstn = true) :
    (∀ i : Fin 4, (tick s).trip.faults[i] = filterStep s.pins.faults[i] s.trip.faults[i] ∧
      (Instr.filteredLevelChange (.flt i) ∈ (tick s).pending ↔ filterTicks s ≤ (tick s).trip.faults[i].run)) ∧
    (tick s).trip.tripLine = filterStep (trpnLow s) s.trip.tripLine ∧
    (Instr.filteredLevelChange .trpn ∈ (tick s).pending ↔ filterTicks s ≤ (tick s).trip.tripLine.run) := by
  obtain ⟨p, m, hl⟩ := tickLinked_eq s
  obtain ⟨n, hn⟩ := tick_after_line hp
  have hline : (tick s).trip.tripLine = filterStep (trpnLow s) s.trip.tripLine := by rw [hn, hl]; rfl
  have hfault (i : Fin 4) : (tick s).trip.faults[i] = filterStep s.pins.faults[i] s.trip.faults[i] := by
    rw [hn, hl]; simp
  have due (c : Instr) (hc : origin c = .level) : c ∈ (tick s).pending ↔
      (∃ i : Fin 4, filterTicks s ≤ (filterStep s.pins.faults[i] s.trip.faults[i]).run ∧
        c = .filteredLevelChange (.flt i)) ∨
      filterTicks s ≤ (filterStep (trpnLow s) s.trip.tripLine).run ∧ c = .filteredLevelChange .trpn := by
    rw [mem_tick_iff hp, hc]
    refine (mem_tickFilters (tickMoved s) c).trans ?_
    rw [tickMoved_eq, hl]; rfl
  refine ⟨fun i => ⟨hfault i, ?_⟩, hline, ?_⟩
  · rw [due _ rfl, hfault]
    constructor
    · rintro (⟨j, hj, he⟩ | ⟨-, he⟩)
      · obtain rfl := FilteredInput.flt.inj (Instr.filteredLevelChange.inj he); exact hj
      · cases he
    · exact fun h => .inl ⟨i, h, rfl⟩
  · rw [due _ rfl, hline]
    constructor
    · rintro (⟨_, -, he⟩ | ⟨h, -⟩)
      · cases he
      · exact h
    · exact fun h => .inr ⟨h, rfl⟩

theorem tick_settle {s : State} (hp : s.pins.rstn = true) :
    (tick s).trip.settled = (if s.trip.settling then s.trip.settled + 1 else s.trip.settled) ∧
    ∀ low, Instr.clearSample low ∈ (tick s).pending ↔
      s.trip.settling = true ∧ s.trip.settled + 1 = 40 ∧ low = trpnLow s := by
  obtain ⟨p, m, hl⟩ := tickLinked_eq s
  obtain ⟨n, hn⟩ := tick_after_line hp
  refine ⟨by rw [hn, hl], fun low => ?_⟩
  rw [mem_tick_iff hp]
  refine (mem_tickSettle (tickFilters (tickMoved s)).1 _).trans ?_
  rw [tickMoved_eq, hl, Instr.clearSample.injEq]
  rfl

/-- A state has of the line what one tick of the bit engine makes of another. -/
structure LineTick (s t : State) : Prop where
  link : t.link = (tickLine s).1.link
  acq : t.acq = (tickLine s).1.acq
  dominant : lrxDominant t = lrxDominant (tickLine s).1
  mem : ∀ c, origin c = .line → (c ∈ t.pending ↔ c ∈ (tickLine s).2)

/-- The line of a tick is that of the station before it, but for the port, the free values and what the tick begins. -/
theorem tick_line {s : State} (hp : s.pins.rstn = true) : ∃ p n, LineTick { s with
      host := { s.host with port := p }
      now := { shown := pinLevels s, entered := false, arrived := false, waiting := [], left := none }
      free := n } (tick s) := by
  obtain ⟨p, n, hu⟩ := tickPort_beginTick s
  obtain ⟨m, hn⟩ := tick_after_line hp
  have e : tickLinked s = (tickLine (tickPort (beginTick s)).1).1 := rfl
  rw [hu] at e
  refine ⟨p, n, ?_, ?_, ?_, fun c hc => ?_⟩
  · rw [hn, e]
  · rw [hn, e]
  · rw [hn, e]; rfl
  · rw [mem_tick_iff hp, hc, ← hu]; rfl

end Sys2Proof.Machine
end

section
/-! O2. The bit engine in a tick (R1, R3, R5 to R8, R12 to R14, R84), and the step on an empty queue. -/

namespace Sys2Proof.Machine

/-! ## What a tick brings of the line -/

/-- No bit time ends between two states (R1). -/
def LineStill (s t : State) : Prop :=
  t.link.timer = s.link.timer ∧ t.link.rxBuffer = s.link.rxBuffer ∧ t.acq = s.acq ∧
    t.link.bits.run = s.link.bits.run ∧ t.link.bits.driven = s.link.bits.driven ∧
    t.link.bits.txBits = s.link.bits.txBits ∧ t.link.bits.sending = s.link.bits.sending ∧
    t.link.bits.rx = s.link.bits.rx ∧ (¬∃ start, Instr.markAccepted start ∈ t.pending) ∧
    ∀ c ∈ t.pending, ∀ k bytes, c ≠ .windowEnd k ∧ c ≠ .frameReceived k bytes ∧ c ≠ .receptionError k ∧
      c ≠ .lineDisturbance k ∧ c ≠ .ownWindowStart ∧ c ≠ .markDriveEnd ∧ c ≠ .markTimeout ∧ c ≠ .loneStart

/-- A tick brings what a sample of a level brings (R7, R13). -/
def SampleBrings (s t : State) (level : Bool) : Prop :=
  (∀ d, Instr.timerReachesL d ∈ t.pending ↔
    onLink s = true ∧ s.link.mark = .quiet ∧ s.link.timer = cycleLength s ∧ d = level) ∧
  (Instr.deferredMarkStart ∈ t.pending ↔ onLink s = true ∧ s.link.mark = .deferred ∧ level = false) ∧
  (Instr.readbackMismatch ∈ t.pending ↔ s.link.bits.sending = true ∧ s.link.bits.txBits.headD false ≠ level)

/-- A tick brings nothing that a sample decides. -/
def NoDecision (t : State) : Prop := Instr.deferredMarkStart ∉ t.pending ∧ Instr.readbackMismatch ∉ t.pending

/-- The line stands still where the tick has moved only the phase, the sample and the remembered level. -/
theorem lineStill_of {s t : State} {phase : Nat} {taken sample level : Bool}
    (hlink : t.link = { s.link with bits := { s.link.bits with
      phase := phase, sampled := taken, sample := sample, level := level } })
    (hacq : t.acq = s.acq) {lv : Bool}
    (hmem : ∀ c, origin c = .line → c ∈ t.pending → c ∈ sampleCommands s lv) : LineStill s t := by
  have none {c : Instr} (ho : origin c = .line) (hc : c ∈ t.pending) :
      (∃ d, c = .timerReachesL d) ∨ c = .deferredMarkStart ∨ c = .readbackMismatch := by
    rcases (mem_sampleCommands s lv c).1 (hmem c ho hc) with ⟨-, rfl⟩ | ⟨-, rfl⟩ | ⟨-, rfl⟩
    · exact .inl ⟨_, rfl⟩
    · exact .inr (.inl rfl)
    · exact .inr (.inr rfl)
  rw [LineStill, hlink]
  refine ⟨rfl, rfl, hacq, rfl, rfl, rfl, rfl, rfl, fun ⟨start, h⟩ => ?_, fun c hc k bytes => ?_⟩
  · simpa using none rfl h
  · refine ⟨?_, ?_, ?_, ?_, ?_, ?_, ?_, ?_⟩ <;> rintro rfl <;> simpa using none rfl hc

theorem sampleBrings_of {s t : State} {level : Bool}
    (hmem : ∀ c, origin c = .line → (c ∈ t.pending ↔ c ∈ sampleCommands s level)) : SampleBrings s t level := by
  refine ⟨fun d => ?_, ?_, ?_⟩
  · rw [hmem _ rfl, mem_sampleCommands]; simp [and_assoc]
  · rw [hmem _ rfl, mem_sampleCommands]; simp
  · rw [hmem _ rfl, mem_sampleCommands]; simp

theorem noDecision_of {t : State} (hmem : ∀ c, origin c = .line → c ∉ t.pending) :
    NoDecision t ∧ ∀ d, Instr.timerReachesL d ∉ t.pending := ⟨⟨hmem _ rfl, hmem _ rfl⟩, fun _ => hmem _ rfl⟩

/-! ## The cases of a bit time (R1) -/

/-- The station on whose line the end of a bit time has acted. -/
structure LineEnds (s t : State) : Prop where
  link : t.link = (noteLevel (bitEnded s)).link
  acq : t.acq = (bitEnded s).acq
  dominant : lrxDominant t = lrxDominant (bitEnded s)
  mem : ∀ c, origin c = .line → (c ∈ t.pending ↔ c ∈ bitCommands s)

section
variable {s t : State} (h : LineTick s t)
include h

theorem LineTick.of_eq {u : State} {q : List Instr} (e : tickLine s = (u, q)) :
    t.link = u.link ∧ t.acq = u.acq ∧ lrxDominant t = lrxDominant u ∧
      ∀ c, origin c = .line → (c ∈ t.pending ↔ c ∈ q) := by
  have := h.link; have := h.acq; have := h.dominant; have := h.mem
  rw [e] at *
  exact ⟨‹_›, ‹_›, ‹_›, ‹_›⟩

theorem LineTick.offline (ho : s.station = .offline) :
    t.link = s.link ∧ t.acq = s.acq ∧ ¬∃ start, Instr.markAccepted start ∈ t.pending := by
  obtain ⟨hlink, hacq, -, hmem⟩ := h.of_eq (if_pos ho : tickLine s = (s, []))
  exact ⟨hlink, hacq, fun ⟨_, hc⟩ => by simpa using (hmem _ rfl).1 hc⟩

/-- The level remembered of a tick is the line's at its end. -/
theorem LineTick.level (ho : s.station ≠ .offline) : t.link.bits.level = lrxDominant t := by
  have sample (u : State) : (takeSample u).1.link.bits.level = u.link.bits.level ∧
      lrxDominant (takeSample u).1 = lrxDominant u := by
    unfold takeSample; dsimp only; split <;> exact ⟨rfl, rfl⟩
  rw [h.link, h.dominant]
  unfold tickLine; rw [if_neg ho]; dsimp only
  rw [(sample _).1, (sample _).2]; rfl

theorem LineTick.ends (ho : s.station ≠ .offline)
    (hc : s.link.bits.phase + 1 = ticksOf s.tables.link.divisor ∨
      (¬s.link.bits.phase + 1 = ticksOf s.tables.link.divisor ∧ lrxDominant s = true ∧ s.link.bits.level = false) ∧
        s.link.bits.sampled = true) : LineEnds s t := by
  obtain ⟨hlink, hacq, hdom, hmem⟩ := h.of_eq (tickLine_bitEnd ho hc)
  exact ⟨hlink, hacq, hdom, hmem⟩

/-- A transition before the sample drops the bit time (log entry 38). -/
theorem LineTick.dropped (ho : s.station ≠ .offline) (hl : ¬s.link.bits.phase + 1 = ticksOf s.tables.link.divisor)
    (hb : lrxDominant s = true ∧ s.link.bits.level = false) (hs : s.link.bits.sampled = false)
    (hd : ¬s.link.bits.phase + 1 = ticksOf s.tables.link.divisor / 2) :
    LineStill s t ∧ t.link.bits.phase = 0 ∧ t.link.bits.sampled = false ∧ NoDecision t ∧
      ∀ d, Instr.timerReachesL d ∉ t.pending := by
  obtain ⟨hlink, hacq, -, hmem⟩ := h.of_eq (tickLine_dropped ho hl hb hs hd)
  have none (c : Instr) (hc : origin c = .line) : c ∉ t.pending := by rw [hmem c hc]; simp
  refine ⟨lineStill_of (lv := false) hlink hacq fun c hc hin => absurd hin (none c hc), ?_, ?_, noDecision_of none⟩
  · rw [hlink]; rfl
  · rw [hlink]; exact hs

/-- A transition in the tick of the sample drops the bit time, or counts it with a dominant sample (log entry 33). -/
theorem LineTick.sampleOrDrop (ho : s.station ≠ .offline)
    (hl : ¬s.link.bits.phase + 1 = ticksOf s.tables.link.divisor)
    (hb : lrxDominant s = true ∧ s.link.bits.level = false) (hs : s.link.bits.sampled = false)
    (hd : s.link.bits.phase + 1 = ticksOf s.tables.link.divisor / 2) :
    t.link.bits.phase = 0 ∧ t.link.bits.sampled = false ∧
      (LineStill s t ∧ NoDecision t ∧ (∀ d, Instr.timerReachesL d ∉ t.pending) ∨
        t.link.timer = timerAfter s ∧ t.link.bits.previous = true ∧ SampleBrings s t true) := by
  rcases tickLine_sampleOrDrop ho hl hb hs hd with e | e
  · obtain ⟨hlink, hacq, -, hmem⟩ := h.of_eq e
    have none (c : Instr) (hc : origin c = .line) : c ∉ t.pending := by rw [hmem c hc]; simp
    refine ⟨by rw [hlink]; rfl, by rw [hlink]; exact hs, .inl ⟨?_, noDecision_of none⟩⟩
    exact lineStill_of (lv := false) hlink hacq fun c hc hin => absurd hin (none c hc)
  · obtain ⟨hlink, -, -, hmem⟩ := h.of_eq e
    have dominant : (sampledAt true s).link.bits.sample = true := rfl
    refine ⟨by rw [hlink]; rfl, by rw [hlink]; rfl, .inr ⟨by rw [hlink]; rfl, by rw [hlink]; rfl, fun d => ?_, ?_, ?_⟩⟩
    · rw [hmem _ rfl, List.mem_append, mem_sampleCommands]
      simp [timerReachesL_not_mem_of_dominant dominant, and_assoc]
    · rw [hmem _ rfl, List.mem_append, mem_sampleCommands]
      simp [deferredMarkStart_not_mem_bitCommands]
    · rw [hmem _ rfl, List.mem_append, mem_sampleCommands]
      simp [readbackMismatch_not_mem_bitCommands]

/-- Inside a bit time only its sample can fall due. -/
theorem LineTick.inside (ho : s.station ≠ .offline) (hl : ¬s.link.bits.phase + 1 = ticksOf s.tables.link.divisor)
    (hb : ¬(lrxDominant s = true ∧ s.link.bits.level = false)) :
    LineStill s t ∧ t.link.bits.phase = s.link.bits.phase + 1 ∧
      (s.link.bits.phase + 1 = ticksOf s.tables.link.divisor / 2 ∧ s.link.bits.sampled = false →
        t.link.bits.sampled = true ∧ t.link.bits.sample = lrxDominant s ∧ SampleBrings s t (lrxDominant s)) ∧
      (¬(s.link.bits.phase + 1 = ticksOf s.tables.link.divisor / 2 ∧ s.link.bits.sampled = false) →
        t.link.bits.sampled = s.link.bits.sampled ∧ t.link.bits.sample = s.link.bits.sample ∧ NoDecision t ∧
          ∀ d, Instr.timerReachesL d ∉ t.pending) := by
  have e := tickLine_inside ho hl hb
  by_cases hd : SampleDue (noteLevel (setPhase (s.link.bits.phase + 1) s))
  · obtain ⟨hlink, hacq, -, hmem⟩ := h.of_eq (e.trans (takeSample_due hd))
    refine ⟨lineStill_of (lv := lrxDominant s) hlink hacq fun c hc => (hmem c hc).1, by rw [hlink]; rfl, fun _ => ?_,
      fun hn => absurd hd hn⟩
    exact ⟨by rw [hlink], by rw [hlink]; rfl, sampleBrings_of hmem⟩
  · obtain ⟨hlink, hacq, -, hmem⟩ := h.of_eq (e.trans (takeSample_idle hd))
    have none (c : Instr) (hc : origin c = .line) : c ∉ t.pending := by rw [hmem c hc]; simp
    refine ⟨lineStill_of (lv := false) hlink hacq fun c hc hin => absurd hin (none c hc), by rw [hlink]; rfl,
      fun hx => absurd hx hd, fun _ => ⟨by rw [hlink]; rfl, by rw [hlink]; rfl, noDecision_of none⟩⟩

end

end Sys2Proof.Machine
end

section
/-! O2. What the end of a bit time leaves and brings, and the step on an empty queue. -/

namespace Sys2Proof.Machine

/-! ## The end of a bit time in a tick -/

section
variable {s t : State} (h : LineEnds s t)
include h

theorem LineEnds.counts :
    t.link.timer = (if timerRuns s then s.link.timer + 1 else s.link.timer) ∧ t.link.bits.phase = 0 ∧
      t.link.bits.sampled = false ∧ t.link.bits.previous = s.link.bits.sample ∧
      t.acq.elapsed = (if s.station = .listening ∧ s.acq.phase = .seek then min (4 * cycleLength s) (s.acq.elapsed + 1)
        else s.acq.elapsed) ∧ NoDecision t := by
  rw [h.link, h.acq]
  refine ⟨rfl, rfl, rfl, rfl, rfl, ?_, ?_⟩ <;> rw [h.mem _ rfl]
  · exact deferredMarkStart_not_mem_bitCommands s
  · exact readbackMismatch_not_mem_bitCommands s

theorem LineEnds.run :
    (s.link.bits.sample = false → t.link.bits.run = .between) ∧
      (s.link.bits.sample = true → s.link.bits.run = .between → t.link.bits.run = .counting s.link.timer 1) ∧
      (s.link.bits.sample = true → ∀ start n, s.link.bits.run = .counting start n →
        t.link.bits.run = if n = 11 then .passed else .counting start (n + 1)) ∧
      (∀ start, Instr.markAccepted start ∈ t.pending ↔
        s.link.bits.sample = true ∧ s.link.bits.run = .counting start 11 ∧ runKind s start = .mark) ∧
      (∀ k : StationNo, Instr.lineDisturbance k ∈ t.pending ↔ onLink s = true ∧ s.link.bits.sample = true ∧
        ∃ start, s.link.bits.run = .counting start 11 ∧ 16 ≤ start ∧ start < tailStart s ∧ (start - 16) / 176 = k.val) := by
  rw [h.link]
  exact ⟨runNow_recessive, runNow_first, fun hs _ _ => runNow_counting hs,
    fun start => (h.mem _ rfl).trans (markAccepted_mem_bitCommands s start),
    fun k => (h.mem _ rfl).trans (lineDisturbance_mem_bitCommands s k)⟩

theorem LineEnds.drive :
    t.link.bits.driven = (if s.link.mark = .driving then
        (if s.link.bits.sample then s.link.bits.driven + 1 else s.link.bits.driven) else 0) ∧
      (Instr.markDriveEnd ∈ t.pending ↔ t.link.bits.driven = 12) := by
  rw [h.link]
  exact ⟨rfl, (h.mem _ rfl).trans (markDriveEnd_mem_bitCommands s)⟩

theorem LineEnds.frame :
    (s.link.bits.sending = true → t.link.bits.txBits = s.link.bits.txBits.tail ∧
        (t.link.bits.sending = true ↔ s.link.bits.txBits.tail ≠ [])) ∧
      (s.link.bits.sending = false → t.link.bits.txBits = s.link.bits.txBits ∧ (t.link.bits.sending = true ↔
        onLink s = true ∧ s.link.bits.txBits ≠ [] ∧ t.link.timer = 16 + 176 * s.number.val + 8)) := by
  rw [h.link]
  exact ⟨txAfter_sending (timerAfter s), txAfter_silent (timerAfter s)⟩

variable (hm : ¬∃ start, Instr.markAccepted start ∈ t.pending)
include hm

theorem LineEnds.unmarked (start : Nat) : .markAccepted start ∉ bitCommands s :=
  fun hc => hm ⟨start, (h.mem _ rfl).2 hc⟩

theorem LineEnds.timer :
    (∀ k, Instr.windowEnd k ∈ t.pending ↔
        receiving s = true ∧ k.val < stationCount s ∧ s.link.timer + 1 = 16 + 176 * (k.val + 1)) ∧
      (Instr.ownWindowStart ∈ t.pending ↔ onLink s = true ∧ s.link.timer + 1 = 16 + 176 * s.number.val) ∧
      (∀ d, Instr.timerReachesL d ∈ t.pending ↔ onLink s = true ∧ s.link.mark = .quiet ∧
        s.link.timer + 1 = cycleLength s ∧ lrxDominant t = false ∧ s.link.bits.sample = false ∧ d = false) ∧
      (Instr.markTimeout ∈ t.pending ↔ timerRuns s = true ∧ s.link.timer + 1 = 2 * cycleLength s) ∧
      (Instr.loneStart ∈ t.pending ↔ s.station = .listening ∧ s.acq.phase = .seek ∧
        4 * cycleLength s ≤ s.acq.elapsed + 1 ∧ lrxDominant t = false) := by
  have quiet := h.unmarked hm
  rw [h.dominant]
  exact ⟨fun k => (h.mem _ rfl).trans (windowEnd_mem_bitCommands quiet k),
    (h.mem _ rfl).trans (ownWindowStart_mem_bitCommands quiet),
    fun d => (h.mem _ rfl).trans (timerReachesL_mem_bitCommands quiet d),
    (h.mem _ rfl).trans (markTimeout_mem_bitCommands quiet), (h.mem _ rfl).trans (loneStart_mem_bitCommands quiet)⟩

theorem LineEnds.receiver (k : StationNo) :
    let here : Prop := receiving s = true ∧ windowAt s s.link.timer = some k
    let offset := s.link.timer - windowStart k
    (Instr.receptionError k ∈ t.pending ↔ here ∧
      (s.link.bits.rx = .hunt ∧ s.link.bits.sample = true ∧ s.link.bits.previous = false ∧ ¬(4 ≤ offset ∧ offset ≤ 12) ∨
        s.link.bits.sample = true ∧ (∃ bits, s.link.bits.rx = .stop bits) ∨
        s.link.bits.sample = false ∧ s.link.bits.rx = .gap 2)) ∧
    (∀ bytes, Instr.frameReceived k bytes ∈ t.pending ↔ here ∧ s.link.bits.sample = false ∧
      ∃ bits, s.link.bits.rx = .stop bits ∧ bytes = s.link.rxBuffer ++ [byteOf bits] ∧
        (match frameLength (bytes.headD 0) with | none => True | some n => n ≤ bytes.length)) ∧
    (here →
      t.link.bits.rx =
        (rxAfter s.link.bits.sample s.link.bits.previous offset s.link.bits.rx s.link.rxBuffer).1 ∧
      t.link.rxBuffer =
        (rxAfter s.link.bits.sample s.link.bits.previous offset s.link.bits.rx s.link.rxBuffer).2.1) := by
  have quiet := h.unmarked hm
  intro here offset
  refine ⟨?_, fun bytes => ?_, fun hw => ?_⟩
  · rw [h.mem _ rfl, receptionError_mem_bitCommands quiet, windowNow_iff]
    refine and_congr_right fun hw => ?_
    rw [received_of_window ((windowNow_iff s k).2 hw)]
    exact rxAfter_error ..
  · rw [h.mem _ rfl, frameReceived_mem_bitCommands quiet, windowNow_iff]
    refine and_congr_right fun hw => ?_
    rw [received_of_window ((windowNow_iff s k).2 hw)]
    exact rxAfter_frame ..
  · have e := received_of_window ((windowNow_iff s k).2 hw)
    rw [h.link]
    exact ⟨congrArg Prod.fst e, congrArg (fun r => r.2.1) e⟩

end

/-! ## The step -/

theorem step_rstnLow {s : State} (hq : s.pending = []) (hp : s.pins.rstn = false) : step s = .next s := by
  unfold step idle tick; rw [hq]; dsimp only
  cases s.now.waiting <;> simp [hp]

theorem step_waiting {s : State} (hq : s.pending = []) (hp : s.pins.rstn = true) {p : Postponed} {rest : List Postponed}
    (hw : s.now.waiting = p :: rest) :
    step s = .next (takePostponed p { s with now := { s.now with waiting := rest } }) := by
  unfold step idle; rw [hq, hw]; simp [hp]

theorem step_tick {s : State} (hq : s.pending = []) (hw : s.now.waiting = []) : step s = .next (tick s) := by
  unfold step idle; rw [hq, hw]

/-- Settles O2: the parts of a tick are read one by one, and the line's by the case of its bit time. -/
theorem idleStepIsOneTick : Obligations.IdleStepIsOneTick := by
  intro s hq
  refine ⟨step_rstnLow hq, fun p rest hp hw => ?_, fun hp hw => ⟨tick s, step_tick hq hw, rfl, ?_, ?_, tick_gates hp, ?_,
    tick_settle hp, ?_⟩⟩
  · refine (step_waiting hq hp hw).trans ?_
    cases p <;> rfl
  · obtain ⟨q, m, hl⟩ := tickLinked_eq s
    obtain ⟨n, hn⟩ := tick_after_line hp
    rw [hl] at hn
    rw [hn]
    exact ⟨rfl, rfl, rfl, rfl, rfl, rfl, rfl, rfl, rfl, rfl, rfl, rfl, rfl⟩
  · have advances : (s.carrier.running = true ∧ ¬∃ start, Instr.markAccepted start ∈ (tick s).pending) = Advances s :=
      propext (advances_iff hp).symm
    dsimp only
    rw [advances]
    obtain ⟨hmoves, hstands⟩ := tick_carrier hp
    exact ⟨hmoves, hstands, loadPoint_mem_tick hp, compareCrossing_mem_tick hp⟩
  · obtain ⟨hfaults, hline, hdue⟩ := tick_filters hp
    simp only [filterStep_eq] at hfaults hline
    exact ⟨hfaults, hline, hdue⟩
  · obtain ⟨q, n, hlt⟩ := tick_line hp
    refine ⟨hlt.offline, hlt.level, fun ho hc => ?_, fun ho ⟨hl, hb⟩ hs hd => hlt.dropped ho hl hb hs hd,
      fun ho ⟨hl, hb⟩ hs hd => hlt.sampleOrDrop ho hl hb hs hd, fun ho hl hb => hlt.inside ho hl fun h => hb ⟨hl, h⟩⟩
    have he := hlt.ends ho hc
    refine ⟨he.counts, he.run, he.drive, he.frame, fun hm => ?_⟩
    obtain ⟨hend, hstart, hreach, htimeout, hlone⟩ := he.timer hm
    exact ⟨hend, hstart, hreach, htimeout, hlone, he.receiver hm⟩

end Sys2Proof.Machine
end

section
/-! SUPPORT. What keeps the law of what a station sends (R20, R22, R27, R36, R49, R78): that law block by block, together with the
freeze of the tables outside OFFLINE (R150), and what each kind of update does to it. -/

namespace Sys2Proof.Machine

/-! ## The change in the slot, and the Change Unit -/

/-- The change in a slot names only stations below S; a local one is the station's own, with an electorate inside the union of a
view and its new set; a remote one is another station's (R27, R49). -/
structure SlotFits (count : StationCount) (number : StationNo) (view : StationSet) (c : Slot) : Prop where
  newSet : setBelow count c.newSet = true
  electorate : setBelow count c.electorate = true
  own : c.state ≠ .vacant → c.remote = false →
    c.proposer = number ∧ subset c.electorate (view ||| c.newSet) = true
  other : c.state ≠ .vacant → c.remote = true → c.proposer ≠ number ∧ c.proposer.val < countOf count

/-- The Change Unit names only stations below S, and holds a change that fits its view. -/
structure ChangeFits (count : StationCount) (number : StationNo) (u : ChangeUnit) : Prop where
  view : setBelow count u.view = true
  slot : SlotFits count number u.view u.slot
  collected : ∀ pair ∈ u.collection, setBelow count pair.1 = true

section
variable {count : StationCount} {number : StationNo} {view : StationSet}

theorem slotFits_vacant : SlotFits count number view Slot.vacant where
  newSet := setBelow_zero count
  electorate := setBelow_zero count
  own h := absurd rfl h
  other h := absurd rfl h

/-- A slot whose change stands fits as before, whatever becomes of its progress. -/
theorem SlotFits.progress {c d : Slot} (h : SlotFits count number view c) (held : d.state ≠ .vacant → c.state ≠ .vacant)
    (same : d.newSet = c.newSet ∧ d.electorate = c.electorate ∧ d.remote = c.remote ∧ d.proposer = c.proposer) :
    SlotFits count number view d := by
  obtain ⟨hn, he, hr, hp⟩ := same
  constructor
  · rw [hn]; exact h.newSet
  · rw [he]; exact h.electorate
  · rw [hn, he, hr, hp]; exact fun hd => h.own (held hd)
  · rw [hr, hp]; exact fun hd => h.other (held hd)

theorem state_judgeTally_ne_vacant {c : Slot} (h : (judgeTally c).state ≠ .vacant) : c.state ≠ .vacant := by
  intro e; simp [judgeTally, e] at h

theorem SlotFits.judged {c : Slot} (h : SlotFits count number view c) : SlotFits count number view (judgeTally c) := by
  refine h.progress state_judgeTally_ne_vacant ?_
  rw [judgeTally_eq]; exact ⟨rfl, rfl, rfl, rfl⟩

theorem changeFits_empty (q : SequenceNo) : ChangeFits count number (ChangeUnit.empty q) where
  view := setBelow_zero count
  slot := slotFits_vacant
  collected _ h := absurd h List.not_mem_nil

theorem ChangeFits.withSlot {u : ChangeUnit} (h : ChangeFits count number u) {c : Slot}
    (hc : SlotFits count number u.view c) : ChangeFits count number { u with slot := c } := ⟨h.view, hc, h.collected⟩

end

/-! ## The law of what a station sends, and the freeze -/

/-- The law of what a station sends, block by block, and the freeze of the tables outside OFFLINE (R150), which the first one needs:
a table is written only in OFFLINE, where the Change Unit and the Roster are empty. -/
structure Sending (s : State) : Prop where
  number : s.station ≠ .offline → s.number.val < stationCount s
  change : ChangeFits s.tables.link.count s.number s.change
  heard : ∀ k : StationNo, (entryOf s k).presence ≠ .unseen → k ≠ s.number ∧ k.val < stationCount s
  quiet : s.station = .offline → s.change = ChangeUnit.empty s.change.sequence ∧ s.roster = Roster.empty
  frozen : s.tables.frozen = true ↔ s.station ≠ .offline

theorem sending_iff (s : State) : Sending s ↔ FrameLaw s ∧ (s.tables.frozen = true ↔ s.station ≠ .offline) := by
  constructor
  · rintro ⟨number, ⟨view, ⟨newSet, electorate, own, other⟩, collected⟩, heard, quiet, frozen⟩
    exact ⟨⟨number, view, ⟨newSet, electorate⟩, collected, heard, own, other, quiet⟩, frozen⟩
  · rintro ⟨⟨number, view, ⟨newSet, electorate⟩, collected, heard, own, other, quiet⟩, frozen⟩
    exact ⟨number, ⟨view, ⟨newSet, electorate, own, other⟩, collected⟩, heard, quiet, frozen⟩

theorem entryOf_empty {s : State} (h : s.roster = Roster.empty) (k : StationNo) : entryOf s k = RosterEntry.unseen := by
  unfold entryOf; rw [h]; simp [Roster.empty]

/-- An OFFLINE station at rest sends nothing that its tables could make wrong. -/
theorem sending_resting {s : State} {q : SequenceNo} (station : s.station = .offline) (change : s.change = ChangeUnit.empty q)
    (roster : s.roster = Roster.empty) (frozen : s.tables.frozen = false) : Sending s where
  number h := absurd station h
  change := by rw [change]; exact changeFits_empty q
  heard k h := by rw [entryOf_empty roster] at h; exact absurd rfl h
  quiet _ := by rw [change]; exact ⟨rfl, roster⟩
  frozen := by simp [station, frozen]

/-- A withdrawal leaves an OFFLINE station at rest (R89). -/
theorem sending_withdrawalResets (s : State) : Sending (withdrawalResets s) :=
  sending_resting (q := s.change.sequence) rfl rfl rfl rfl

section
variable {s t : State} (h : Sending s)
include h

/-- An update outside Station Control, the Roster, the Change Unit and the tables. -/
theorem Sending.congr (station : t.station = s.station) (number : t.number = s.number) (tables : t.tables = s.tables)
    (roster : t.roster = s.roster) (change : t.change = s.change) : Sending t := by
  obtain ⟨hn, hc, hh, hq, hf⟩ := h
  constructor <;> simp only [entryOf, stationCount, station, number, tables, roster, change] <;> assumption

/-- An update of a station that is not in OFFLINE before it or after it, of any block but the entries and the tables. -/
theorem Sending.awake (before : s.station ≠ .offline) (after : t.station ≠ .offline) (number : t.number = s.number)
    (tables : t.tables = s.tables) (entries : t.roster.entries = s.roster.entries)
    (change : ChangeFits s.tables.link.count s.number t.change) : Sending t where
  number _ := by unfold stationCount; rw [number, tables]; exact h.number before
  change := by rw [number, tables]; exact change
  heard k := by unfold entryOf stationCount; rw [entries, number, tables]; exact h.heard k
  quiet e := absurd e after
  frozen := by rw [tables, h.frozen]; exact iff_of_true before after

/-- An update of the Change Unit that leaves it empty in OFFLINE. -/
theorem Sending.changed {u : ChangeUnit} (fits : ChangeFits s.tables.link.count s.number u)
    (still : s.station = .offline → u = s.change) : Sending { s with change := u } := by
  by_cases ho : s.station = .offline
  · rw [still ho]; exact h
  · exact h.awake ho ho rfl rfl rfl fits

/-- The slot in OFFLINE holds no change. -/
theorem Sending.slot_offline (ho : s.station = .offline) : s.change.slot = Slot.vacant := by
  rw [(h.quiet ho).1]; rfl

theorem Sending.setSlot {c : Slot} (fits : SlotFits s.tables.link.count s.number s.change.view c)
    (still : s.station = .offline → c = Slot.vacant) : Sending (setSlot c s) := by
  refine h.changed (h.change.withSlot fits) fun ho => ?_
  rw [still ho, ← h.slot_offline ho]

theorem Sending.setEntry (k : StationNo) (e : RosterEntry) (ho : s.station ≠ .offline) (hn : k ≠ s.number)
    (hS : k.val < stationCount s) : Sending (setEntry k e s) where
  number := h.number
  change := h.change
  heard j hj := by
    by_cases e : j = k
    · rw [e]; exact ⟨hn, hS⟩
    · refine h.heard j ?_
      rwa [entryOf, setEntry_roster, getElem_set_station, if_neg e] at hj
  quiet e := absurd e ho
  frozen := h.frozen

/-- JOIN's second check has the station's number below S (R78, R158). -/
theorem Sending.enterListening (hv : firstInvalid s.tables s.number = none) : Sending (enterListening s) where
  number _ := by
    unfold firstInvalid at hv
    split at hv
    · cases hv
    · rename_i hlt
      simp only [Bool.or_eq_true, decide_eq_true_eq, not_or, not_le] at hlt
      exact hlt.2
  change := h.change
  heard := h.heard
  quiet e := by cases e
  frozen := by simp [Machine.enterListening]

end

end Sys2Proof.Machine
end

section
/-! O9. Every step keeps the law of what a station sends (R22, R36, R49). -/

namespace Sys2Proof.Machine

/-! ## Changes that the station takes -/

theorem electorateOf_subset (s : State) (set : StationSet) : subset (electorateOf s set) set = true :=
  subset_iff.2 fun k hk => ((mem_electorateOf s set k).1 hk).1

theorem setBelow_of_subset {c : StationCount} {a b : StationSet} (h : setBelow c a = true) (hs : subset b a = true) :
    setBelow c b = true := setBelow_of_members h (subset_iff.1 hs)

/-- A local proposal fits where its new set lies below S and its electorate in the union of the view and the new set (R49, R68). -/
theorem slotFits_localProposal {s : State} (h : Sending s) (automatic : Bool) {newSet electorate : StationSet} (p : ProfileNo)
    (hn : setBelow s.tables.link.count newSet = true) (he : subset electorate (s.change.view ||| newSet) = true) :
    SlotFits s.tables.link.count s.number s.change.view (localProposal s automatic newSet p electorate) where
  newSet := hn
  electorate := setBelow_of_subset (setBelow_or h.change.view hn) he
  own _ _ := ⟨rfl, he⟩
  other _ hr := by cases hr

/-- A station in standing has been heard, so it lies below S (R36). -/
theorem below_of_inStanding {s : State} (h : Sending s) {k : StationNo} (hk : inStanding s k = true) :
    k.val < stationCount s := by
  refine (h.heard k fun e => ?_).2
  simp [inStanding, standing, isPresent, e] at hk

/-- The members of the new set of a PROPOSE that passes its fourth check lie below S (R48). -/
theorem setBelow_of_standing {s : State} (h : Sending s) (ho : s.station ≠ .offline) {newSet : StationSet}
    (hs : memberNotStanding s newSet = none) : setBelow s.tables.link.count newSet = true := by
  rw [setBelow_iff]
  intro k hk
  have hk := List.find?_eq_none.1 hs k ((mem_members k newSet).2 hk)
  by_cases hn : k = s.number
  · rw [hn]; exact h.number ho
  · exact below_of_inStanding h (by simpa [hn] using hk)

theorem slotFits_dropProposal {s : State} (h : Sending s) :
    SlotFits s.tables.link.count s.number s.change.view (dropProposal s) := by
  refine slotFits_localProposal h true s.change.profile ?_ ?_
  · exact setBelow_of_members h.change.view fun k hk => by simp_all
  · refine subset_iff.2 fun k hk => ?_
    have := subset_iff.1 (electorateOf_subset s _) k hk
    simp_all

/-- An adopted proposal is one of another station below S, with the sets of its frame (R27, R53). -/
theorem slotFits_adoptedSlot {s : State} {f : Frame} {p : Proposal} (hn : f.sender ≠ s.number)
    (hS : f.sender.val < stationCount s) (hm : malformed s.tables.link.count f = false) (hp : f.part = .proposal p) :
    SlotFits s.tables.link.count s.number s.change.view (adoptedSlot s f p) where
  newSet := ((sets_of_wellFormed hm).2 p hp).1
  electorate := ((sets_of_wellFormed hm).2 p hp).2
  own _ hr := by cases hr
  other _ _ := ⟨hn, hS⟩

/-- The claim of an application: the view is the new set, and the station is JOINED or RUNNING (R64). -/
theorem applyClaim_claims (c : Slot) (s : State) :
    (applyClaim c s).1.station ≠ .offline ∧ (applyClaim c s).1.change.view = c.newSet := by
  have claimed : stateAfter s c.newSet ≠ .offline := by unfold stateAfter; split <;> simp
  unfold applyClaim; dsimp only
  split
  · obtain ⟨l, -, e⟩ := load_eq (setpointReset (carrierStart { s with
      station := stateAfter s c.newSet, change := { s.change with view := c.newSet, profile := c.newProfile } }))
    rw [gateApply_eq, e]
    exact ⟨claimed, rfl⟩
  · exact ⟨claimed, rfl⟩
  · exact ⟨claimed, rfl⟩

theorem not_offline_of_inGroup {s : State} (h : inGroup s = true) : s.station ≠ .offline := by
  intro e; simp [inGroup, e] at h

/-! ## Every elementary update -/

theorem kept_sending : Kept Sending where
  host _ _ h _ := h.congr rfl rfl rfl rfl rfl
  free _ _ h := h.congr rfl rfl rfl rfl rfl
  pins _ _ h := h.congr rfl rfl rfl rfl rfl
  pending _ _ h := h.congr rfl rfl rfl rfl rfl
  now _ _ h := h.congr rfl rfl rfl rfl rfl
  wires _ _ _ h := h.congr rfl rfl rfl rfl rfl
  trip _ _ h _ _ _ _ _ := h.congr rfl rfl rfl rfl rfl
  settle _ h _ := h.congr rfl rfl rfl rfl rfl
  added _ _ _ h _ := h.congr rfl rfl rfl rfl rfl
  cleared s h ht := h.awake (by simp [ht]) (by simp) rfl rfl rfl ⟨h.change.view, h.change.slot, h.change.collected⟩
  tripped s _ _ _ _ h hg := by
    rw [tripEntry_eq]
    exact h.awake (not_offline_of_inGroup hg) (by simp) rfl rfl rfl
      ⟨setBelow_zero _, slotFits_vacant, h.change.collected⟩
  withdrawn s _ := sending_withdrawalResets s
  joined s _ _ h hs := h.awake (by simp [hs]) (by simp [enterJoined]) rfl rfl rfl
    ⟨h.change.view, h.change.slot, h.change.collected⟩
  vacated _ h := h.setSlot slotFits_vacant fun _ => rfl
  drop s h hd := h.setSlot (slotFits_dropProposal h) fun ho => by simp [dropDue, ho] at hd
  proposed s newSet _ h hg _ _ hs :=
    h.setSlot (slotFits_localProposal h false _ (setBelow_of_standing h (not_offline_of_inGroup hg) hs)
      (electorateOf_subset s _)) fun ho => absurd ho (not_offline_of_inGroup hg)
  adopted _ _ _ h hg hn hS hm hp :=
    h.setSlot (slotFits_adoptedSlot hn hS hm hp) fun ho => absurd ho (not_offline_of_inGroup hg)
  sent s _ _ h hg hp :=
    have held : s.change.slot.state ≠ .vacant := by simp [hp]
    h.changed ⟨h.change.view, h.change.slot.progress (fun _ => held) ⟨rfl, rfl, rfl, rfl⟩, h.change.collected⟩
      fun ho => absurd ho (not_offline_of_inGroup hg)
  counted s _ h hs := h.setSlot (h.change.slot.progress id ⟨rfl, rfl, rfl, rfl⟩) fun ho => by
    rw [h.slot_offline ho] at hs; cases hs
  judged s h := h.setSlot h.change.slot.judged fun ho => by rw [h.slot_offline ho]; rfl
  collect s f h hl hm _ := by
    have ho := not_offline_of_onLink hl
    refine h.awake ho ho rfl rfl rfl ⟨h.change.view, h.change.slot, fun pair hp => ?_⟩
    rcases List.mem_append.1 hp with hp | hp
    · exact h.change.collected pair hp
    · rw [List.mem_singleton.1 hp]; exact (sets_of_wellFormed hm).1
  emptied s h := h.changed ⟨h.change.view, h.change.slot, fun _ hp => absurd hp List.not_mem_nil⟩
    fun ho => by rw [(h.quiet ho).1]; rfl
  discord _ _ h ho := h.awake ho ho rfl rfl rfl ⟨h.change.view, h.change.slot, h.change.collected⟩
  hold _ _ h ho := h.awake ho ho rfl rfl rfl ⟨h.change.view, h.change.slot, h.change.collected⟩
  pair s pair h hj hv _ hp := by
    have ho : s.station ≠ .offline := by simp [hj]
    refine h.awake ho ho rfl rfl rfl ⟨?_, ?_, h.change.collected⟩
    · rcases hp with rfl | hp
      · exact setBelow_zero _
      · exact h.change.collected pair hp
    · exact ⟨h.change.slot.newSet, h.change.slot.electorate, fun hn => absurd hv hn, fun hn => absurd hv hn⟩
  entry _ k e h ho hn hS := h.setEntry k e ho hn hS
  judgeLost _ _ h hl := h.awake (not_offline_of_onLink hl) (not_offline_of_onLink hl) rfl rfl rfl h.change
  mismatch _ _ h ho := h.awake ho ho rfl rfl rfl h.change
  advance _ _ h _ _ := h.congr rfl rfl rfl rfl rfl
  unmarked _ h := h.congr rfl rfl rfl rfl rfl
  gates _ _ h _ _ := h.congr rfl rfl rfl rfl rfl
  counts _ h := h.congr rfl rfl rfl rfl rfl
  load s h _ := by
    obtain ⟨_, -, e⟩ := load_eq s
    rw [e]; exact h.congr rfl rfl rfl rfl rfl
  queue _ _ h _ := h.congr rfl rfl rfl rfl rfl

/-! ## The four updates of their own -/

/-- An application makes the new set of the slot the view and empties the slot (R64). -/
theorem keptByApply_sending : KeptByApply Sending := by
  intro s h hg _
  obtain ⟨awake, view⟩ := applyClaim_claims s.change.slot s
  have st := steady_applyClaim s.change.slot s
  refine h.awake (not_offline_of_inGroup hg) awake st.number st.tables st.entries ⟨?_, slotFits_vacant, ?_⟩
  · exact view ▸ h.change.slot.newSet
  · exact st.collection ▸ h.change.collected

/-- A table is written only where the tables are not frozen (R168), in OFFLINE. -/
theorem sending_writeEntry {s : State} {written : Except Nat Tables} {after : State → State} (h : Sending s)
    (hw : ∀ t, written = .ok t → t.frozen = s.tables.frozen)
    (ha : ∀ u, Sending u → Sending (after u)) : Sending (writeEntry s written after) := by
  have K := kept_sending
  unfold writeEntry
  split
  · exact K.setResult _ _ h
  · rename_i hf
    split
    · exact K.setResult _ _ h
    · rename_i t
      have ho : s.station = .offline := by
        by_contra ho; exact hf (h.frozen.2 ho)
      obtain ⟨change, roster⟩ := h.quiet ho
      refine K.setResult _ _ (ha _ (sending_resting ho change roster ?_))
      exact (hw t rfl).trans (by simpa using hf)

theorem sending_twriteStep {s : State} (h : Sending s) : Sending (twriteStep s) := by
  have refused : ∀ d, Sending (setResult .refusedRange d s) := fun d => kept_sending.setResult _ d h
  have stored {α : Type} (e : Except Nat α) (store : α → Tables) (hs : ∀ a, (store a).frozen = s.tables.frozen) :
      ∀ t, e.map store = .ok t → t.frozen = s.tables.frozen := by
    cases e with
    | error => intro t ht; cases ht
    | ok a => intro t ht; cases ht; exact hs a
  have plain : ∀ u, Sending u → Sending (id u) := fun _ hu => hu
  unfold twriteStep refuseIndex; dsimp only
  repeat' split
  · exact sending_writeEntry h (stored _ _ fun _ => rfl) fun _ hu => hu.congr rfl rfl rfl rfl rfl
  · exact refused _
  · exact sending_writeEntry h (stored _ _ fun _ => rfl) plain
  · exact refused _
  · exact sending_writeEntry h (stored _ _ fun _ => rfl) plain
  · exact refused _
  · exact sending_writeEntry h (stored _ _ fun _ => rfl) plain
  · exact refused _
  · exact refused _

theorem sending_step {s t : State} (h : Sending s) (hs : step s = .next t) : Sending t := by
  have K := kept_sending
  unfold step at hs
  split at hs
  · injection hs with hs
    rw [← hs]; exact K.idle h
  · rename_i c rest _
    refine K.exec (s := { s with pending := rest }) (K.pending _ _ h) hs ?_
      (fun _ _ hu _ hv => hu.enterListening hv) (fun _ _ hu => sending_twriteStep hu) fun _ => keptByApply_sending
    rintro ids rfl
    injection hs with hs
    rw [← hs]; exact sending_resting (q := 0) rfl rfl rfl rfl

/-- Settles O9: every elementary update keeps the law together with the freeze of the tables, which TableLaw gives (R150). -/
theorem stepKeepsFrameLaw : Obligations.StepKeepsFrameLaw := by
  intro s t _ tables _ frame hs
  have h : Sending s := (sending_iff s).2 ⟨frame, tables.frozen⟩
  exact ((sending_iff t).1 (sending_step h hs)).1

end Sys2Proof.Machine
end

section
/-! O50. The layout of a frame, byte by byte, and its check (R3, R20, R21). -/

namespace Sys2Proof.Machine

/-! ## Packed fields as numbers -/

/-- A packed field stands above the fields below it. -/
theorem toNat_pack {n m : Nat} (a : BitVec n) (b : BitVec m) : (a ++ b).toNat = a.toNat * 2 ^ m + b.toNat := by
  rw [BitVec.toNat_append, Nat.shiftLeft_eq, Nat.mul_comm, ← Nat.two_pow_add_eq_or_of_lt b.isLt]

theorem toNat_lowByte (w : Word16) : (lowByte w).toNat = w.toNat % 256 := by
  simp [lowByte, BitVec.extractLsb'_toNat]

theorem toNat_highByte (w : Word16) : (highByte w).toNat = w.toNat / 256 := by
  have := w.isLt
  simp [highByte, BitVec.extractLsb'_toNat, Nat.shiftRight_eq_div_pow]
  omega

theorem toNat_stationField (k : StationNo) : (stationField k).toNat = k.val := rfl

/-- Bytes are the bytes of their numbers. -/
theorem map_ofNat_toNat (bytes : List Byte) : (bytes.map (·.toNat)).map (BitVec.ofNat 8) = bytes := by
  simp [Function.comp_def]

/-! ## The parts of a frame (R20) -/

theorem toNat_frameByte0 (f : Frame) : (frameByte0 f).toNat =
    f.sender.val + 16 * (advCode f.state).toNat + 64 * (isProposal f.part).toNat + 128 * (isVote f.part).toNat := by
  unfold frameByte0 flag
  simp only [toNat_pack, toNat_stationField, BitVec.toNat_ofBool]
  omega

theorem toNat_basePart (f : Frame) : (basePart f).map (·.toNat) =
    [f.sender.val + 16 * (advCode f.state).toNat + 64 * (isProposal f.part).toNat + 128 * (isVote f.part).toNat,
      f.linkCode.toNat, f.cycle.toNat % 256, f.cycle.toNat / 256,
      f.group.toNat + 4 * f.profile.toNat + 32 * f.tripClass.toNat, f.set.toNat % 256, f.set.toNat / 256] := by
  have byte4 : (f.tripClass ++ f.profile ++ f.group).toNat =
      f.group.toNat + 4 * f.profile.toNat + 32 * f.tripClass.toNat := by
    rw [toNat_pack, toNat_pack]; omega
  simp only [basePart, List.map_cons, List.map_nil, toNat_frameByte0, byte4, toNat_lowByte, toNat_highByte]

theorem toNat_proposalPart (p : Proposal) : (optionalPart (.proposal p)).map (·.toNat) =
    [p.sequence.toNat + 16 * p.newProfile.toNat, p.newSet.toNat % 256, p.newSet.toNat / 256, p.electorate.toNat % 256,
      p.electorate.toNat / 256, p.effective.toNat % 256, p.effective.toNat / 256] := by
  have byte0 : (0#1 ++ p.newProfile ++ p.sequence).toNat = p.sequence.toNat + 16 * p.newProfile.toNat := by
    simp only [toNat_pack, BitVec.toNat_ofNat]; omega
  simp only [optionalPart, List.map_cons, List.map_nil, byte0, toNat_lowByte, toNat_highByte]

theorem toNat_votePart (v : Vote) : (optionalPart (.vote v)).map (·.toNat) =
    [v.proposer.val + 16 * v.sequence.toNat, (verdictCode v.verdict).toNat] := by
  have byte0 : (v.sequence ++ stationField v.proposer).toNat = v.proposer.val + 16 * v.sequence.toNat := by
    rw [toNat_pack, toNat_stationField]; omega
  have byte1 : (0#5 ++ verdictCode v.verdict).toNat = (verdictCode v.verdict).toNat := by
    rw [toNat_pack]; simp
  simp only [optionalPart, List.map_cons, List.map_nil, byte0, byte1]

/-- The bytes of a frame as numbers: those of its two parts, and behind them the check of these, low byte first (R20, R21). -/
theorem toNat_encodeFrame {f : Frame} {body : List Nat} (h : (basePart f ++ optionalPart f.part).map (·.toNat) = body) :
    (encodeFrame f).map (·.toNat) =
      body ++ [(crc (body.map (BitVec.ofNat 8))).toNat % 256, (crc (body.map (BitVec.ofNat 8))).toNat / 256] := by
  subst h
  rw [map_ofNat_toNat]
  simp only [encodeFrame, List.map_append, List.map_cons, List.map_nil, toNat_lowByte, toNat_highByte]

/-- The length of a frame, by its part (R20). -/
theorem length_encodeFrame (f : Frame) : (encodeFrame f).length = 9 + (optionalPart f.part).length := by
  simp only [encodeFrame, basePart, List.length_append, List.length_cons, List.length_nil]
  omega

/-- Settles O50: the parts byte by byte, and the check of the bytes before it. -/
theorem frameEncodingRoundTrips : Obligations.FrameEncodingRoundTrips := by
  refine ⟨by decide +kernel, fun f => ⟨decodeFrame_encodeFrame f, crcMatches_encodeFrame f, ?_, frameLength_frameByte0 f⟩,
    fun f => ?_, fun _ => rfl⟩
  · rw [length_encodeFrame]; cases f.part <;> rfl
  · refine toNat_encodeFrame ?_
    rw [List.map_append, toNat_basePart]
    have state : (advCode f.state).toNat = (match f.state with | .joined => 1 | .running => 2 | .tripped => 3) := by
      cases f.state <;> rfl
    have verdict (v : Verdict) : (verdictCode v).toNat = (match v with
        | .accept => 0 | .late => 1 | .profile => 2 | .held => 3 | .basis => 4 | .member => 5) := by cases v <;> rfl
    rw [state]
    cases hp : f.part with
    | base => rfl
    | proposal p => rw [toNat_proposalPart]; rfl
    | vote v => rw [toNat_votePart, verdict]; rfl

end Sys2Proof.Machine
end

section
/-! O52. The own frame at the checks of the peers (R22, R27). -/

namespace Sys2Proof.Machine

/-! ## Well-formed frames (R27) -/

theorem unpaired_eq_false_iff {set : StationSet} {profile : ProfileNo} : unpaired set profile = false ↔ paired set profile := by
  rw [unpaired, bne_eq_false_iff_eq, Bool.eq_iff_iff, beq_iff_eq, beq_iff_eq]; rfl

/-- A frame that meets no malformed condition of R27, condition by condition. -/
structure WellFormedFrame (count : StationCount) (f : Frame) : Prop where
  pair : paired f.set f.profile
  class_ne : f.tripClass ≠ 7
  class_iff : f.tripClass ≠ 0 ↔ f.state = .tripped
  tripped : f.state = .tripped → f.set = 0 ∧ f.part = .base
  running : f.state = .running → member f.sender f.set = true
  joined : f.state = .joined → member f.sender f.set = false
  below : setBelow count f.set = true
  proposal : ∀ p, f.part = .proposal p → paired p.newSet p.newProfile ∧ subset p.electorate (f.set ||| p.newSet) = true ∧
    setBelow count p.newSet = true ∧ setBelow count p.electorate = true
  vote : ∀ v, f.part = .vote v → v.proposer ≠ f.sender ∧ v.proposer.val < countOf count

theorem WellFormedFrame.malformed_eq_false {count : StationCount} {f : Frame} (h : WellFormedFrame count f) :
    malformed count f = false := by
  obtain ⟨pair, class_ne, class_iff, tripped, running, joined, below, proposal, vote⟩ := h
  have part : (f.state == .tripped && (isProposal f.part || isVote f.part)) = false := by
    by_cases ht : f.state = .tripped
    · simp [(tripped ht).2, isProposal, isVote]
    · simp [ht]
  have trip : ((f.tripClass != 0) != (f.state == .tripped)) = false := by
    rw [bne_eq_false_iff_eq, Bool.eq_iff_iff, bne_iff_ne, beq_iff_eq]; exact class_iff
  unfold malformed
  simp only [Bool.or_eq_false_iff]
  refine ⟨⟨⟨⟨⟨⟨⟨⟨unpaired_eq_false_iff.2 pair, by simpa using class_ne⟩, trip⟩, ?_⟩, ?_⟩, ?_⟩, part⟩, by simpa using below⟩, ?_⟩
  · simpa using fun ht => (tripped ht).1
  · simpa using running
  · simpa using joined
  · cases hp : f.part with
    | base => rfl
    | proposal p =>
      obtain ⟨newPair, electorate, newSet, electors⟩ := proposal p hp
      simp [unpaired_eq_false_iff.2 newPair, electorate, newSet, electors]
    | vote v => simpa using vote v hp

/-! ## The fields of the own frame (R22, R23, R25, R26) -/

theorem ownAdvState_running {s : State} : ownAdvState s = .running ↔ s.station = .running := by
  unfold ownAdvState; cases s.station <;> simp

theorem ownAdvState_tripped {s : State} : ownAdvState s = .tripped ↔ s.station = .tripped := by
  unfold ownAdvState; cases s.station <;> simp

/-- Every cause has a trip class, and none has the class 7 (R26). -/
theorem tripClassOf_some (c : Cause) : tripClassOf (some c) ≠ 0 ∧ tripClassOf (some c) ≠ 7 := by
  cases c <;> exact ⟨by simp [tripClassOf], by simp [tripClassOf]⟩

theorem ownPart_apart {s : State} (h : inGroup s = false) : ownPart s = .base :=
  ownPart_base fun hg => by simp [h] at hg

/-- A vote is sent on a remote change in the slot, and names its proposer (R25). -/
theorem ownPart_eq_vote {s : State} {v : Vote} (h : ownPart s = .vote v) :
    s.change.slot.state ≠ .vacant ∧ s.change.slot.remote = true ∧ v.proposer = s.change.slot.proposer := by
  unfold ownPart at h; dsimp only at h
  split at h
  · rename_i held
    have := held.2
    repeat' split at h
    all_goals cases h
    refine ⟨?_, ‹_›, rfl⟩
    rcases this with e | e <;> simp [e]
  · cases h

/-- A proposal is sent of a local change in the slot, with its sets and its profile (R23). -/
theorem ownPart_eq_proposal {s : State} {p : Proposal} (h : ownPart s = .proposal p) :
    s.change.slot.state ≠ .vacant ∧ s.change.slot.remote = false ∧ p.newSet = s.change.slot.newSet ∧
      p.newProfile = s.change.slot.newProfile ∧ p.electorate = s.change.slot.electorate := by
  unfold ownPart at h; dsimp only at h
  split at h
  · rename_i held
    have := held.2
    repeat' split at h
    all_goals cases h
    refine ⟨?_, by simpa using ‹¬s.change.slot.remote = true›, rfl, rfl, rfl⟩
    rcases this with e | e <;> simp [e]
  · cases h

theorem tripClass_ownFrame {s : State} (record : RecordLaw s) :
    (ownFrame s).tripClass ≠ 7 ∧ ((ownFrame s).tripClass ≠ 0 ↔ s.station = .tripped) := by
  unfold ownFrame; dsimp only
  by_cases ht : s.station = .tripped
  · obtain ⟨c, hc, -⟩ := record.tripped ht
    obtain ⟨h0, h7⟩ := tripClassOf_some c
    rw [if_pos ht, hc]
    exact ⟨h7, iff_of_true h0 ht⟩
  · rw [if_neg ht]
    exact ⟨by decide, iff_of_false (fun h => h rfl) ht⟩

/-- The laws of the view, of the trip record and of what a station sends are the conditions of R27 on the own frame. -/
theorem wellFormed_ownFrame {s : State} (view : ViewLaw s) (record : RecordLaw s) (frame : FrameLaw s) :
    WellFormedFrame s.tables.link.count (ownFrame s) := by
  obtain ⟨class_ne, class_iff⟩ := tripClass_ownFrame record
  have outside : s.station ≠ .running → member s.number s.change.view = false := fun h =>
    Bool.eq_false_iff.2 (mt view.running.2 h)
  refine ⟨view.view, class_ne, class_iff.trans ownAdvState_tripped.symm, fun h => ?_, fun h => ?_, fun h => ?_, frame.view,
    fun p hp => ?_, fun v hv => ?_⟩
  · have ht : s.station = .tripped := ownAdvState_tripped.1 h
    exact ⟨(view.apart (.inr (.inr ht))).1, ownPart_apart (by simp [inGroup, ht])⟩
  · exact view.running.1 (ownAdvState_running.1 h)
  · refine outside fun hr => ?_
    have h : ownAdvState s = .joined := h
    rw [ownAdvState_running.2 hr] at h; cases h
  · obtain ⟨held, isLocal, newSet, newProfile, electorate⟩ := ownPart_eq_proposal hp
    rw [newSet, newProfile, electorate]
    exact ⟨view.slot held, (frame.own held isLocal).2, frame.slot⟩
  · obtain ⟨held, isRemote, proposer⟩ := ownPart_eq_vote hv
    rw [proposer]
    exact frame.other held isRemote

/-- Settles O52: the own frame is well formed, and the peers' link table has its link code. -/
theorem ownFrameIsAcceptedByPeers : Obligations.OwnFrameIsAcceptedByPeers := by
  intro s view record frame _
  have wellFormed := (wellFormed_ownFrame view record frame).malformed_eq_false
  exact ⟨wellFormed, (checkFrame_encodeFrame wellFormed).trans (if_pos rfl)⟩

end Sys2Proof.Machine
end

section
/-! SUPPORT. What keeps the law of the view (R38, R46, R47): all that the law reads, and what each kind of update does to it. -/

namespace Sys2Proof.Machine

/-- All that the law of the view reads, but for the station state. -/
def viewed (s : State) : StationNo × StationSet × ProfileNo × Slot × List (StationSet × ProfileNo) × StationSet :=
  (s.number, s.change.view, s.change.profile, s.change.slot, s.change.collection, s.roster.lost)

theorem viewed_eq_iff (s t : State) : viewed t = viewed s ↔
    t.number = s.number ∧ t.change.view = s.change.view ∧ t.change.profile = s.change.profile ∧
      t.change.slot = s.change.slot ∧ t.change.collection = s.change.collection ∧ t.roster.lost = s.roster.lost := by
  simp only [viewed, Prod.mk.injEq]

/-- A lost set that the law allows: it lies in the view and leaves out the station (R38). -/
def lostFits (s : State) (lost : StationSet) : Prop :=
  subset lost s.change.view = true ∧ member s.number lost = false

theorem lostFits_iff {s : State} {lost : StationSet} :
    lostFits s lost ↔ ∀ k, member k lost = true → member k s.change.view = true ∧ k ≠ s.number := by
  unfold lostFits
  rw [subset_iff]
  constructor
  · rintro ⟨inView, own⟩ k hk
    exact ⟨inView k hk, fun e => by rw [e, own] at hk; cases hk⟩
  · intro h
    exact ⟨fun k hk => (h k hk).1, Bool.eq_false_iff.2 fun hk => (h _ hk).2 rfl⟩

/-- A lost member is a member of the view other than the station (R38). -/
theorem viewed_of_isLost {s : State} {k : StationNo} (h : isLost s k = true) :
    member k s.change.view = true ∧ k ≠ s.number := by
  simp only [isLost, Bool.and_eq_true, bne_iff_ne] at h
  exact h.1

theorem lostFits_judgeView (admitted : StationSet) (s : State) : lostFits s (judgeView admitted s).roster.lost :=
  lostFits_iff.2 fun k hk => viewed_of_isLost ((member_judgeView admitted s k).1 hk).1

theorem lostFits_judgeLost {s : State} (h : lostFits s s.roster.lost) (k : StationNo) :
    lostFits s (judgeLost k s).roster.lost := by
  rw [lostFits_iff] at h ⊢
  intro j hj
  rw [judgeLost_roster] at hj
  by_cases hk : isLost s k = true
  · rw [if_pos hk, member_adjoin, Bool.or_eq_true, decide_eq_true_eq] at hj
    rcases hj with hj | rfl
    · exact h j hj
    · exact viewed_of_isLost hk
  · rw [if_neg hk, member_remove, Bool.and_eq_true] at hj
    exact h j hj.1

/-- Outside RUNNING, with no view, no change and nobody lost, the law asks only for paired collections. -/
theorem viewLaw_resting {s : State} (station : s.station ≠ .running) (view : s.change.view = 0)
    (profile : s.change.profile = 0) (slot : s.change.slot = Slot.vacant) (lost : s.roster.lost = 0)
    (collected : ∀ pair ∈ s.change.collection, paired pair.1 pair.2) : ViewLaw s where
  running := iff_of_false station (by simp [view])
  view := by rw [view, profile]; exact iff_of_true rfl rfl
  apart _ := ⟨view, slot⟩
  slot h := absurd (congrArg (·.state) slot) h
  collected := collected
  lost := by rw [lost]; exact ⟨subset_iff.2 (by simp), member_zero _⟩

section
variable {s t : State} (h : ViewLaw s)
include h

/-- An update of nothing that the law reads. -/
theorem ViewLaw.congr (same : viewed t = viewed s) (station : t.station = s.station) : ViewLaw t := by
  obtain ⟨number, view, profile, slot, collection, lost⟩ := (viewed_eq_iff s t).1 same
  obtain ⟨hr, hv, ha, hs, hc, hl⟩ := h
  constructor <;> simp only [number, view, profile, slot, collection, lost, station] <;> assumption

/-- A station that takes part in no group moves to a state other than RUNNING: its view is empty before and after. -/
theorem ViewLaw.moves (same : viewed t = viewed s) (before : Machine.apart s.station) (after : t.station ≠ .running) : ViewLaw t := by
  obtain ⟨number, view, profile, slot, collection, lost⟩ := (viewed_eq_iff s t).1 same
  obtain ⟨noView, noSlot⟩ := h.apart before
  have noLost : s.roster.lost = 0 := by
    refine set_eq_zero.2 fun k => ?_
    by_contra hk
    have := subset_iff.1 h.lost.1 k (by simpa using hk)
    simp [noView] at this
  refine viewLaw_resting after (view.trans noView) (profile.trans (h.view.1 noView)) (slot.trans noSlot)
    (lost.trans noLost) ?_
  rw [collection]; exact h.collected

theorem ViewLaw.setSlot {c : Slot} (pair : c.state ≠ .vacant → paired c.newSet c.newProfile)
    (still : Machine.apart s.station → c = Slot.vacant) : ViewLaw (setSlot c s) :=
  ⟨h.running, h.view, fun ha => ⟨(h.apart ha).1, still ha⟩, pair, h.collected, h.lost⟩

/-- A slot whose change keeps its set and its profile, and that holds a change only where it held one. -/
theorem ViewLaw.progress {c : Slot} (held : c.state ≠ .vacant → s.change.slot.state ≠ .vacant)
    (same : c.newSet = s.change.slot.newSet ∧ c.newProfile = s.change.slot.newProfile)
    (still : Machine.apart s.station → c = Slot.vacant) : ViewLaw (Machine.setSlot c s) :=
  h.setSlot (fun hc => by rw [same.1, same.2]; exact h.slot (held hc)) still

theorem ViewLaw.collects {l : List (StationSet × ProfileNo)} (hl : ∀ pair ∈ l, paired pair.1 pair.2) :
    ViewLaw { s with change := { s.change with collection := l } } :=
  ⟨h.running, h.view, h.apart, h.slot, hl, h.lost⟩

theorem ViewLaw.judged {lost : StationSet} (hl : lostFits s lost) :
    ViewLaw { s with roster := { s.roster with lost := lost } } :=
  ⟨h.running, h.view, h.apart, h.slot, h.collected, hl⟩

end

end Sys2Proof.Machine
end


section
/-! O7. Every step keeps the law of the view (R38, R46, R47). -/

namespace Sys2Proof.Machine

/-! ## Pairs of changes and frames (R27, R47) -/

/-- The pairs of a well-formed frame: its own, and that of its proposal (R27). -/
theorem pairs_of_wellFormed {c : StationCount} {f : Frame} (h : malformed c f = false) :
    paired f.set f.profile ∧ ∀ p, f.part = .proposal p → paired p.newSet p.newProfile := by
  unfold malformed at h
  simp only [Bool.or_eq_false_iff] at h
  obtain ⟨⟨⟨⟨⟨⟨⟨⟨own, -⟩, -⟩, -⟩, -⟩, -⟩, -⟩, -⟩, part⟩ := h
  refine ⟨unpaired_eq_false_iff.1 own, fun p hp => ?_⟩
  simp only [hp, Bool.or_eq_false_iff] at part
  exact unpaired_eq_false_iff.1 part.1.1.1

/-- The set and the profile of a PROPOSE that passes its third check pair (R48). -/
theorem paired_of_profileUnfit {t : Tables} {newSet : StationSet} {p : Byte} (h : profileUnfit t newSet p = false) :
    paired newSet (p.setWidth 3) := by
  simp only [profileUnfit, Bool.or_eq_false_iff, Bool.and_eq_false_iff, bne_eq_false_iff_eq, beq_eq_false_iff_ne,
    decide_eq_false_iff_not] at h
  obtain ⟨⟨⟨full, empty⟩, range⟩, -⟩ := h
  have narrow : p.setWidth 3 = 0 ↔ p = 0 := by clear full empty; revert p; decide
  rw [paired, narrow]
  exact ⟨fun hs => empty.resolve_left fun hn => hn hs, fun hp => full.resolve_right fun hn => hn hp⟩

theorem not_apart_of_inGroup {s : State} (h : inGroup s = true) : ¬apart s.station := by
  rintro (e | e | e) <;> simp [inGroup, e] at h

/-- An automatic DROP keeps the station in its new set, so neither that nor the live profile is empty (R47, R68). -/
theorem paired_dropProposal {s : State} (h : ViewLaw s) (hd : dropDue s = true) :
    paired (dropProposal s).newSet (dropProposal s).newProfile := by
  have hs : s.station = .running := by
    simp only [dropDue, Bool.and_eq_true, beq_iff_eq] at hd
    exact hd.1.1.1
  have inView := h.running.1 hs
  have viewFull : s.change.view ≠ 0 := fun e => by simp [e] at inView
  have keptFull : without s.change.view s.roster.lost ≠ 0 := fun e => by
    have := set_eq_zero.1 e s.number
    simp [inView, h.lost.2] at this
  exact iff_of_false keptFull (mt h.view.2 viewFull)

/-- The claim of an application gives the state, the view and the live profile in one step (R64). -/
theorem applyClaim_takes (c : Slot) (s : State) :
    (applyClaim c s).1.station = stateAfter s c.newSet ∧ (applyClaim c s).1.change.view = c.newSet ∧
      (applyClaim c s).1.change.profile = c.newProfile := by
  by_cases hm : member s.number c.newSet = true
  · obtain ⟨_, -, _, _, e, -⟩ := applyClaim_running c s hm
    rw [e]
    exact ⟨(if_pos hm).symm, rfl, rfl⟩
  · simp only [applyClaim, stateAfter, if_neg hm]
    split
    · contradiction
    all_goals exact ⟨rfl, rfl, rfl⟩

theorem stateAfter_running {s : State} {newSet : StationSet} :
    stateAfter s newSet = .running ↔ member s.number newSet = true := by
  unfold stateAfter; split <;> simp_all

theorem not_apart_stateAfter (s : State) (newSet : StationSet) : ¬apart (stateAfter s newSet) := by
  unfold stateAfter apart; split <;> simp

/-! ## Every elementary update -/

theorem kept_viewLaw : Kept ViewLaw where
  host _ _ h _ := h.congr rfl rfl
  free _ _ h := h.congr rfl rfl
  pins _ _ h := h.congr rfl rfl
  pending _ _ h := h.congr rfl rfl
  now _ _ h := h.congr rfl rfl
  wires _ _ _ h := h.congr rfl rfl
  trip _ _ h _ _ _ _ _ := h.congr rfl rfl
  settle _ h _ := h.congr rfl rfl
  added _ _ _ h _ := h.congr rfl rfl
  cleared _ h ht := h.moves rfl (.inr (.inr ht)) (by simp)
  tripped _ _ _ _ _ h _ := by
    rw [tripEntry_eq]
    exact viewLaw_resting (by simp) rfl rfl rfl rfl h.collected
  withdrawn _ _ := viewLaw_resting (by simp [withdrawalResets]) rfl rfl rfl rfl fun _ hp => absurd hp List.not_mem_nil
  joined _ _ _ h hs := h.moves rfl (.inr (.inl hs)) (by simp [enterJoined])
  vacated _ h := h.setSlot (fun hc => absurd rfl hc) fun _ => rfl
  drop _ h hd := h.setSlot (fun _ => paired_dropProposal h hd) fun ha => by
    rcases ha with e | e | e <;> simp [dropDue, e] at hd
  proposed _ _ _ h hg _ hp _ :=
    h.setSlot (fun _ => paired_of_profileUnfit hp) fun ha => absurd ha (not_apart_of_inGroup hg)
  adopted _ _ p h hg _ _ hm hp :=
    h.setSlot (fun _ => (pairs_of_wellFormed hm).2 p hp) fun ha => absurd ha (not_apart_of_inGroup hg)
  sent s _ e h hg hp :=
    have opened := h.progress (c := { s.change.slot with state := .opened, sequence := some s.change.sequence, effective := e })
      (fun _ => by simp [hp]) ⟨rfl, rfl⟩ fun ha => absurd ha (not_apart_of_inGroup hg)
    opened.congr rfl rfl
  counted _ _ h hs := h.progress id ⟨rfl, rfl⟩ fun ha => by rw [(h.apart ha).2] at hs; cases hs
  judged s h := by
    refine h.progress state_judgeTally_ne_vacant ?_ fun ha => ?_
    · rw [judgeTally_eq]; exact ⟨rfl, rfl⟩
    · rw [(h.apart ha).2]; rfl
  collect _ _ h _ hm _ := h.collects fun pair hp => by
    rcases List.mem_append.1 hp with hp | hp
    · exact h.collected pair hp
    · rw [List.mem_singleton.1 hp]; exact (pairs_of_wellFormed hm).1
  emptied _ h := h.collects fun _ hp => absurd hp List.not_mem_nil
  discord _ _ h _ := h.congr rfl rfl
  hold _ _ h _ := h.congr rfl rfl
  pair s pair h hj hv hn hp := by
    refine ⟨iff_of_false (by simp [hj]) (by simpa using hn), ?_, fun ha => ?_, fun hs => absurd hv hs, h.collected,
      lostFits_judgeView 0 _⟩
    · rcases hp with rfl | hp
      · exact iff_of_true rfl rfl
      · exact h.collected pair hp
    · exact absurd ha (by simp [apart, hj])
  entry _ _ _ h _ _ _ := h.congr rfl rfl
  judgeLost _ k h _ := h.judged (lostFits_judgeLost h.lost k)
  mismatch _ _ h _ := h.congr rfl rfl
  advance _ _ h _ _ := h.congr rfl rfl
  unmarked _ h := h.congr rfl rfl
  gates _ _ h _ _ := h.congr rfl rfl
  counts _ h := h.congr rfl rfl
  load s h _ := by
    obtain ⟨_, -, e⟩ := load_eq s
    rw [e]; exact h.congr rfl rfl
  queue _ _ h _ := h.congr rfl rfl

/-! ## The four updates of their own -/

/-- An application makes the pair of the slot the view and the live profile, and the station RUNNING exactly as a member (R64). -/
theorem keptByApply_viewLaw : KeptByApply ViewLaw := by
  intro s h _ ha
  obtain ⟨station, view, profile⟩ := applyClaim_takes s.change.slot s
  have st := steady_applyClaim s.change.slot s
  generalize (applyClaim s.change.slot s).1 = v at station view profile st ⊢
  refine ⟨?_, ?_, fun hp => ?_, fun hc => absurd rfl hc, ?_, lostFits_judgeView _ _⟩
  · show v.station = .running ↔ member v.number v.change.view = true
    rw [station, st.number, view]; exact stateAfter_running
  · show paired v.change.view v.change.profile
    rw [view, profile]; exact h.slot (by simp [ha])
  · have hp : apart v.station := hp
    rw [station] at hp; exact (not_apart_stateAfter s _ hp).elim
  · show ∀ pair ∈ v.change.collection, paired pair.1 pair.2
    rw [st.collection]; exact h.collected

/-- A TWRITE writes tables, filters and RESULT, and nothing that the law reads (R168). -/
theorem viewed_twriteStep (s : State) : viewed (twriteStep s) = viewed s ∧ (twriteStep s).station = s.station := by
  unfold twriteStep writeEntry refuseIndex; dsimp only
  repeat' split
  all_goals exact ⟨rfl, rfl⟩

theorem viewLaw_step {s t : State} (h : ViewLaw s) (hs : step s = .next t) : ViewLaw t := by
  have K := kept_viewLaw
  unfold step at hs
  split at hs
  · injection hs with hs
    rw [← hs]; exact K.idle h
  · rename_i c rest _
    refine K.exec (s := { s with pending := rest }) (K.pending _ _ h) hs ?_
      (fun _ u hu ho _ => hu.moves rfl (.inl ho) (by simp [enterListening])) (fun _ u hu => hu.congr (viewed_twriteStep u).1 (viewed_twriteStep u).2)
      fun _ => keptByApply_viewLaw
    rintro ids rfl
    injection hs with hs
    rw [← hs]
    exact viewLaw_resting (by simp [State.powerOn]) rfl rfl rfl rfl fun _ hp => absurd hp List.not_mem_nil

/-- Settles O7: every elementary update keeps the law, and an application makes the station RUNNING exactly as a member. -/
theorem stepKeepsViewLaw : Obligations.StepKeepsViewLaw := fun _ _ => viewLaw_step

end Sys2Proof.Machine
end

section
/-! SUPPORT. The entries of the tables as numbers, byte by byte: every field in its place (R75, R166). -/

namespace Sys2Proof.Machine

/-! ## Codes (R166) -/

theorem toNat_flag (b : Bool) : (flag b).toNat = if b then 1 else 0 := by cases b <;> rfl

theorem toNat_divisorCode (d : Divisor) : (divisorCode d).toNat = match d with | .d4 => 0 | .d8 => 1 | .d16 => 2 := by
  cases d <;> rfl

theorem toNat_flag_s16 (c : StationCount) : (flag (c == .s16)).toNat = match c with | .s8 => 0 | .s16 => 1 := by
  cases c <;> rfl

theorem toNat_flag_activeLow (p : Polarity) :
    (flag (p == .activeLow)).toNat = match p with | .activeHigh => 0 | .activeLow => 1 := by cases p <;> rfl

theorem toNat_ratioCode (r : Ratio) : (ratioCode r).toNat = match r with | .n1 => 0 | .n2 => 1 | .n4 => 2 := by
  cases r <;> rfl

theorem toNat_flag_saw (x : Shape) : (flag (x == .saw)).toNat = match x with | .triangle => 0 | .saw => 1 := by
  cases x <;> rfl

theorem toNat_loadCode (l : LoadSetting) : (loadCode l).toNat = match l with | .valley => 0 | .peak => 1 | .both => 2 := by
  cases l <;> rfl

theorem toNat_flag_pattern (x : Source) : (flag (x == .pattern)).toNat = match x with | .queue => 0 | .pattern => 1 := by
  cases x <;> rfl

theorem toNat_actionCode (a : Action) :
    (actionCode a).toNat = match a with | .ignore => 0 | .report => 1 | .respace => 2 | .trip => 3 := by cases a <;> rfl

theorem toNat_modeCode (m : LegMode) :
    (modeCode m).toNat = match m with | .off => 0 | .switch => 1 | .upperOn => 2 | .lowerOn => 3 := by cases m <;> rfl

theorem toNat_presenceCode (p : Presence) :
    (presenceCode p).toNat = match p with | .unseen => 0 | .present => 1 | .absent => 2 := by cases p <;> rfl

theorem toNat_entryStateCode (st : Option AdvState) : (entryStateCode st).toNat = match st with
    | none => 0 | some .joined => 1 | some .running => 2 | some .tripped => 3 := by
  rcases st with _ | st
  · rfl
  · cases st <;> rfl

theorem toNat_slotCode (st : SlotState) :
    (slotCode st).toNat = match st with | .vacant => 0 | .pending => 1 | .opened => 2 | .agreed => 3 := by cases st <;> rfl

theorem toNat_ownVerdictCode (v : Option Verdict) : (ownVerdictCode v).toNat = match v with
    | none => 7 | some .accept => 0 | some .late => 1 | some .profile => 2 | some .held => 3 | some .basis => 4
    | some .member => 5 := by
  rcases v with _ | v
  · rfl
  · cases v <;> rfl

/-- An unassigned sequence shows 0 (log entry 28). -/
theorem toNat_sequence (q : Option SequenceNo) : (q.getD 0).toNat = q.elim 0 (·.toNat) := by cases q <;> rfl

/-! ## Entries (R75, R166) -/

theorem toNat_linkBytes {l : LinkTable} (number : StationNo) (h : linkInRange l) :
    (linkBytes l number).toList.map (·.toNat) =
      [(divisorCode l.divisor).toNat + 4 * (flag (l.count == .s16)).toNat + 8 * (flag (l.polarity == .activeLow)).toNat +
          16 * (flag l.valid).toNat,
        l.cycleLength % 256, l.cycleLength / 256, l.lead + 16 * l.missLimit, l.linkCode.toNat,
        l.group.toNat + 16 * number.val, l.starveLimit + 16 * l.faultFilter, 0] := by
  obtain ⟨-, length, -, lead, -, misses, starve, filter⟩ := h
  simp only [linkBytes, Vector.toList_mk, List.map_cons, List.map_nil, toNat_pack, toNat_lowByte, toNat_highByte,
    toNat_stationField, BitVec.ofNat_eq_ofNat, BitVec.toNat_ofNat, Nat.zero_mod, List.cons.injEq, true_and, and_true]
  refine ⟨?_, ?_, ?_, ?_, ?_, ?_⟩ <;> omega

theorem toNat_profileBytes {p : Profile} (h : profileInRange p) :
    (profileBytes p).toList.map (·.toNat) =
      [(flag p.configured).toNat + 2 * (ratioCode p.ratio).toNat + 8 * (flag (p.shape == .saw)).toNat +
          16 * (flag p.interleave).toNat + 32 * (loadCode p.loadSetting).toNat + 128 * (flag (p.source == .pattern)).toNat,
        p.deadTime,
        (flag p.enables.a).toNat + 2 * (flag p.enables.b).toNat + 4 * (flag p.enables.c).toNat +
          8 * (flag p.patternRepeat).toNat,
        p.patternStart, p.patternLength, 0, 0, 0] := by
  obtain ⟨-, dead, -, start, length⟩ := h
  simp only [profileBytes, Vector.toList_mk, List.map_cons, List.map_nil, toNat_pack, BitVec.ofNat_eq_ofNat,
    BitVec.toNat_ofNat, Nat.zero_mod, List.cons.injEq, and_true]
  refine ⟨?_, ?_, ?_, ?_, ?_⟩ <;> omega

theorem toNat_causeBytes (r : CauseRow) : (causeBytes r).toList.map (·.toNat) =
    [(actionCode r.action).toNat, (flag r.drive).toNat, 0, 0, 0, 0, 0, 0] := by
  simp only [causeBytes, Vector.toList_mk, List.map_cons, List.map_nil, toNat_pack, BitVec.ofNat_eq_ofNat,
    BitVec.toNat_ofNat, Nat.zero_mod, Nat.zero_mul, Nat.zero_add]

theorem toNat_legBytes (e : PerLeg LegSetting) : (legBytes e).toList.map (·.toNat) =
    [(modeCode e.a.mode).toNat + 16 * (modeCode e.b.mode).toNat, (modeCode e.c.mode).toNat, e.a.compare.toNat % 256,
      e.a.compare.toNat / 256, e.b.compare.toNat % 256, e.b.compare.toNat / 256, e.c.compare.toNat % 256,
      e.c.compare.toNat / 256] := by
  simp only [legBytes, Vector.toList_mk, List.map_cons, List.map_nil, toNat_pack, toNat_lowByte, toNat_highByte,
    BitVec.toNat_ofNat, List.cons.injEq, and_true]
  omega

theorem toNat_rosterBytes (e : RosterEntry) : (rosterBytes e).toList.map (·.toNat) =
    [(presenceCode e.presence).toNat + 4 * (entryStateCode e.state).toNat + 16 * e.group.toNat,
      e.profile.toNat + 8 * e.tripClass.toNat, e.set.toNat % 256, e.set.toNat / 256, e.lastHeard.toNat % 256,
      e.lastHeard.toNat / 256, e.misses % 256, 0] := by
  simp only [rosterBytes, Vector.toList_mk, List.map_cons, List.map_nil, toNat_pack, toNat_lowByte, toNat_highByte,
    BitVec.ofNat_eq_ofNat, BitVec.toNat_ofNat, List.cons.injEq, Nat.zero_mod, and_true]
  omega

theorem toNat_slotBytes (c : Slot) : ((slotLowBytes c).toList ++ (slotHighBytes c).toList).map (·.toNat) =
    [(slotCode c.state).toNat + 4 * (flag c.remote).toNat + 8 * (flag c.automatic).toNat +
        16 * (flag c.sequence.isSome).toNat + 32 * (ownVerdictCode c.verdict).toNat,
      c.proposer.val + 16 * (c.sequence.getD 0).toNat, c.newSet.toNat % 256, c.newSet.toNat / 256,
      c.newProfile.toNat + 8 * c.baseProfile.toNat, c.baseSet.toNat % 256, c.baseSet.toNat / 256,
      c.electorate.toNat % 256, c.electorate.toNat / 256, c.effective.toNat % 256, c.effective.toNat / 256,
      c.accepts.toNat % 256, c.accepts.toNat / 256, c.firstSeen.toNat % 256, c.firstSeen.toNat / 256, 0] := by
  simp only [slotLowBytes, slotHighBytes, Vector.toList_mk, List.cons_append, List.nil_append, List.map_cons, List.map_nil,
    toNat_pack, toNat_lowByte, toNat_highByte, toNat_stationField, BitVec.ofNat_eq_ofNat, BitVec.toNat_ofNat, Nat.zero_mod,
    List.cons.injEq, true_and, and_true]
  omega

theorem rosterBytes_unseen : rosterBytes RosterEntry.unseen = Vector.replicate 8 0 := by decide

end Sys2Proof.Machine
end

section
/-! O15. TREAD, table by table (R44, R75, R154, R167). -/

namespace Sys2Proof.Machine

/-! ## The tables -/

section
variable {s : State}

theorem treadStep_absentTable (h : 5 < s.host.tsel.toNat) : treadStep s = setResult .refusedRange 254 s := by
  unfold treadStep; dsimp only
  split <;> first | omega | rfl

/-- Each table has its number of entries, and an index from there on is refused (R167). -/
theorem treadStep_absentEntry {count : Nat}
    (h : (s.host.tsel.toNat, count) ∈ [(0, 1), (1, 8), (2, 9), (3, 64), (4, 16), (5, 1)]) (hi : count ≤ s.host.tidx.toNat) :
    treadStep s = refuseIndex s := by
  simp only [List.mem_cons, Prod.mk.injEq, List.not_mem_nil, or_false] at h
  unfold treadStep; dsimp only
  rcases h with ⟨e, rfl⟩ | ⟨e, rfl⟩ | ⟨e, rfl⟩ | ⟨e, rfl⟩ | ⟨e, rfl⟩ | ⟨e, rfl⟩ <;> rw [e]
  · exact if_neg (by omega)
  · exact dif_neg (by omega)
  · exact dif_neg (by omega)
  · exact dif_neg (by omega)
  · exact dif_neg (by omega)
  · exact if_neg (by omega)

theorem treadStep_link (h : s.host.tsel = 0) (hi : s.host.tidx = 0) :
    treadStep s = stage (linkBytes s.tables.link s.number) s := by
  unfold treadStep; dsimp only; rw [h, hi]; exact if_pos rfl

theorem treadStep_profile (h : s.host.tsel = 1) (hi : s.host.tidx.toNat < 8) :
    treadStep s = stage (profileBytes s.tables.profiles[s.host.tidx.toNat]) s := by
  unfold treadStep; dsimp only; rw [h]; exact dif_pos hi

theorem treadStep_cause (h : s.host.tsel = 2) (hi : s.host.tidx.toNat < 9) :
    treadStep s = stage (causeBytes s.tables.causes[s.host.tidx.toNat]) s := by
  unfold treadStep; dsimp only; rw [h]; exact dif_pos hi

theorem treadStep_pattern (h : s.host.tsel = 3) (hi : s.host.tidx.toNat < 64) :
    treadStep s = stage (legBytes s.tables.pattern[s.host.tidx.toNat]) s := by
  unfold treadStep; dsimp only; rw [h]; exact dif_pos hi

theorem treadStep_roster (h : s.host.tsel = 4) (hi : s.host.tidx.toNat < 16) :
    treadStep s = stage (rosterBytes (rosterView s ⟨s.host.tidx.toNat, hi⟩)) s := by
  unfold treadStep; dsimp only; rw [h]; exact dif_pos hi

theorem treadStep_slot (h : s.host.tsel = 5) (hi : s.host.tidx = 0) : treadStep s =
    stage (slotLowBytes s.change.slot) { s with host := { s.host with args := slotHighBytes s.change.slot } } := by
  unfold treadStep; dsimp only; rw [h, hi]; exact if_pos rfl

/-- In OFFLINE, for the own number and from S on, the ROSTER table reads UNSEEN (R44). -/
theorem rosterView_unseen {k : StationNo} (h : k.val = s.number.val ∨ stationCount s ≤ k.val ∨ s.station = .offline) :
    rosterView s k = RosterEntry.unseen := if_pos (h.imp_left Fin.ext)

theorem rosterView_peer {k : StationNo} (hn : k.val ≠ s.number.val) (hk : k.val < stationCount s) (ho : s.station ≠ .offline) :
    rosterView s k = s.roster.entries[k] := by
  refine if_neg ?_
  rintro (rfl | h | h)
  · exact hn rfl
  · omega
  · exact ho h

end

/-! ## The command -/

/-- The state in which a TREAD is carried out: its code is the last command (R162). -/
def treadIssued (s : State) : State := { s with host := { s.host with lastCommand := 0x0B } }

theorem exec_tread {s t : State} (hp : s.pins.rstn = true) (h : treadStep (treadIssued s) = t) : exec .tread s = .next t := by
  rw [← h]; exact whilePowered_on _ hp

/-- A TREAD that stages an entry puts the bytes with the entry's numbers into the staging registers. -/
theorem exec_tread_stage {s : State} {bytes : Vector Byte 8} (entry : Vector Byte 8) (hp : s.pins.rstn = true)
    (h : treadStep (treadIssued s) = stage entry (treadIssued s))
    (hb : bytes.toList.map (·.toNat) = entry.toList.map (·.toNat)) :
    exec .tread s = .next
      { s with host := { s.host with lastCommand := 0x0B, result := .done, detail := 0, tdata := bytes } } := by
  have same : bytes = entry := by
    rw [← Vector.toList_inj, ← map_ofNat_toNat bytes.toList, hb, map_ofNat_toNat]
  rw [same]; exact exec_tread hp h

/-- Settles O15: the refusals table by table, and every entry's bytes by their numbers. -/
theorem treadStagesOneEntry : Obligations.TreadStagesOneEntry := by
  intro s hp
  refine ⟨fun h => exec_tread hp (treadStep_absentTable h), fun count h hi => exec_tread hp (treadStep_absentEntry h hi),
    fun bytes h => ?_, fun h hi => ⟨slotLowBytes s.change.slot, slotHighBytes s.change.slot, ?_,
      exec_tread hp (treadStep_slot h hi)⟩⟩
  · rcases h with ⟨h, hi, range, hb⟩ | ⟨h, hi, range, hb⟩ | ⟨h, hi, hb⟩ | ⟨h, hi, hb⟩ | ⟨h, hi, ⟨unseen, rfl⟩ | ⟨hn, hk, ho, hb⟩⟩
    · refine exec_tread_stage (linkBytes s.tables.link s.number) hp
        (treadStep_link (s := treadIssued s) h hi) (hb.trans ?_)
      rw [toNat_linkBytes _ range, toNat_divisorCode, toNat_flag_s16, toNat_flag_activeLow, toNat_flag] <;> rfl
    · refine exec_tread_stage (profileBytes s.tables.profiles[s.host.tidx.toNat]) hp
        (treadStep_profile (s := treadIssued s) h hi) (hb.trans ?_)
      rw [toNat_profileBytes range, toNat_ratioCode, toNat_flag_saw, toNat_loadCode, toNat_flag_pattern]
      simp only [toNat_flag] <;> rfl
    · refine exec_tread_stage (causeBytes s.tables.causes[s.host.tidx.toNat]) hp
        (treadStep_cause (s := treadIssued s) h hi) (hb.trans ?_)
      rw [toNat_causeBytes, toNat_actionCode, toNat_flag] <;> rfl
    · refine exec_tread_stage (legBytes s.tables.pattern[s.host.tidx.toNat]) hp
        (treadStep_pattern (s := treadIssued s) h hi) (hb.trans ?_)
      rw [toNat_legBytes]; simp only [toNat_modeCode] <;> rfl
    · refine exec_tread_stage (rosterBytes (rosterView s ⟨s.host.tidx.toNat, hi⟩)) hp
        (treadStep_roster (s := treadIssued s) h hi) ?_
      rw [rosterView_unseen unseen, rosterBytes_unseen]
    · refine exec_tread_stage (rosterBytes (rosterView s ⟨s.host.tidx.toNat, hi⟩)) hp
        (treadStep_roster (s := treadIssued s) h hi) (hb.trans ?_)
      rw [rosterView_peer hn hk ho, toNat_rosterBytes, toNat_presenceCode, toNat_entryStateCode] <;> rfl
  · rw [toNat_slotBytes, toNat_slotCode, toNat_ownVerdictCode, toNat_sequence]
    simp only [toNat_flag] <;> rfl

end Sys2Proof.Machine
end

section
/-! SUPPORT. A cause that a frame or the end of a window raises at a RUNNING station, and the content of the frame behind it (R28,
R38, R59, R136, R139). -/

namespace Sys2Proof.Machine

/-! ## A raised cause (R133, R135, R136, R139) -/

theorem raiseCause_idle (c : Cause) (x : StationNo) (k : Option MismatchKind) {s : State} (h : actsOn c s = false) :
    raiseCause c x k s = s := by
  unfold raiseCause
  rw [if_neg (by simp [mayMeet, h]), takeCause_idle c x k h]

section
variable {c : Cause} {s : State} (x : StationNo) (k : Option MismatchKind) (hs : s.station = .running)
  (he : evaluated c .running = true)
include hs he

/-- A cause that a RUNNING station evaluates trips it under a TRIP row. -/
theorem takeCause_trips (hr : (rowOf s.tables c).action = .trip) :
    takeCause c x k s = tripEntry c (rowOf s.tables c).drive x k s := by
  unfold takeCause
  rw [hs, if_pos he]; dsimp only; rw [hr]
  dsimp only [tripClaim]; rw [hs]

/-- Under a REPORT row it is reported. -/
theorem takeCause_reports (hr : (rowOf s.tables c).action = .report) :
    takeCause c x k s = post (.causeSeen c .running k) x s := by
  unfold takeCause
  rw [hs, if_pos he]; dsimp only; rw [hr]

end

/-- State `t` is what a raised cause leaves of state `s` while it waits for the other events of its tick (R139). -/
structure CauseWaits (r : Raised) (s t : State) : Prop where
  pending : s.pending ≠ []
  station : t.station = s.station
  roster : t.roster = s.roster
  gate : t.gate = s.gate
  waiting : t.now.waiting = s.now.waiting ++ [.cause r]

/-- What comes to wait behind such a cause. -/
theorem CauseWaits.behind {r : Raised} {s t : State} {p : Postponed} {w : List Postponed} (h : CauseWaits r s t)
    (hw : t.now.waiting ≠ s.now.waiting → w = t.now.waiting ++ [p]) : w = s.now.waiting ++ [.cause r, p] := by
  rw [hw (by rw [h.waiting]; simp), h.waiting, List.append_assoc]; rfl

/-- A raised cause is taken at once, or waits while other events of its tick do; only the free values may have moved on before. -/
theorem raiseCause_taken_or_waits (c : Cause) (x : StationNo) (k : Option MismatchKind) (s : State) :
    (∃ n, raiseCause c x k s = takeCause c x k { s with free := n }) ∨
      CauseWaits ⟨c, x, k⟩ s (raiseCause c x k s) ∧ (raiseCause c x k s).host = s.host := by
  rcases raiseCause_cases c x k s with e | ⟨hp, e | e⟩
  · exact .inl ⟨s.free, e⟩
  · exact .inl ⟨_, e⟩
  · rw [e]; exact .inr ⟨⟨hp, rfl, rfl, rfl, rfl⟩, rfl⟩

/-- A trip entry reads nothing of the free values. -/
theorem TrippedBy.of_free {c : Cause} {d : Bool} {x : StationNo} {k : Option MismatchKind} {s t : State} {n : Nat}
    (h : TrippedBy c d x k { s with free := n } t) : TrippedBy c d x k s t :=
  ⟨h.station, h.trip, h.outputs, h.change, h.roster, h.reports, h.kept, h.now, h.line⟩

section
variable {c : Cause} {s : State} (x : StationNo) (k : Option MismatchKind) (hs : s.station = .running)
  (he : evaluated c .running = true)
include hs he

theorem raiseCause_trips (hr : (rowOf s.tables c).action = .trip) :
    TrippedBy c (rowOf s.tables c).drive x k s (raiseCause c x k s) ∨
      CauseWaits ⟨c, x, k⟩ s (raiseCause c x k s) ∧ (raiseCause c x k s).host = s.host := by
  refine (raiseCause_taken_or_waits c x k s).imp_left ?_
  rintro ⟨n, e⟩
  rw [e, takeCause_trips (s := { s with free := n }) x k hs he hr]
  exact (trippedBy_tripEntry ..).of_free

theorem raiseCause_reports (hr : (rowOf s.tables c).action = .report) :
    (raiseCause c x k s).station = .running ∧
        (raiseCause c x k s).host.reports = arrive s.host.reports (reportOf (.causeSeen c .running k) x s) ∨
      CauseWaits ⟨c, x, k⟩ s (raiseCause c x k s) ∧ (raiseCause c x k s).host = s.host := by
  refine (raiseCause_taken_or_waits c x k s).imp_left ?_
  rintro ⟨n, e⟩
  rw [e, takeCause_reports (s := { s with free := n }) x k hs he hr]
  exact ⟨hs, rfl⟩

end

/-! ## The content of a frame behind its cause (R28, R29) -/

/-- A frame without an optional part, of another group, or at a station that takes no part, brings its pair at most. -/
theorem takeContent_pair {f : Frame} {s : State} (h : inGroup s = false ∨ f.part = .base ∨ f.group ≠ s.tables.link.group) :
    takeContent f s = { s with change := { s.change with collection := collected f s } } := by
  have noPart : f.group = s.tables.link.group → ∀ u : State, inGroup u = inGroup s → (if inGroup u then
      match f.part with
      | .base => u
      | .proposal p => takeProposal f p u
      | .vote v => takeVote f v u
    else u) = u := by
    intro hg u hu
    rcases h with h | h | h
    · rw [if_neg (by simp [hu, h])]
    · rw [h]; exact ite_self u
    · exact absurd hg h
  unfold takeContent collected; dsimp only
  by_cases hg : f.group = s.tables.link.group <;> by_cases hr : f.state = .running <;>
    simp only [hg, hr, if_true, if_false, and_true, and_false]
  · exact noPart hg _ rfl
  · exact noPart hg _ rfl

/-- After the judgements of a frame such a content changes the refresh collection alone; where it waits, it waits behind them. -/
theorem handOver_judged {k : StationNo} {f : Frame} {s j : State}
    (hj : judgeMismatch f (judgeEntry k (entryOf s k) (hearFrame k f s)) = j)
    (h : j.now.waiting = s.now.waiting → inGroup j = false ∨ f.part = .base ∨ f.group ≠ j.tables.link.group) :
    ∃ l w, handOver k f s =
        { j with change := { j.change with collection := l }, now := { j.now with waiting := w } } ∧
      (j.now.waiting ≠ s.now.waiting → w = j.now.waiting ++ [.content f]) := by
  have cases := handOver_eq k f s
  dsimp only at cases
  rw [hj] at cases
  rcases cases with ⟨e, hw⟩ | ⟨e, -⟩
  · rw [takeContent_pair (h hw)] at e
    exact ⟨_, _, e, fun hn => absurd hw hn⟩
  · exact ⟨_, _, e, fun _ => rfl⟩

/-! ## The entry of the sender (R33, R38, R59) -/

theorem hearFrame_present {k : StationNo} {f : Frame} {s : State} (h : (entryOf s k).presence = .present) :
    hearFrame k f s = setEntry k (entryFrom f) s := by
  unfold hearFrame; dsimp only
  rw [if_pos (by simp [isPresent, h])]

theorem entryOf_setEntry (k : StationNo) (e : RosterEntry) (s : State) : entryOf (setEntry k e s) k = e :=
  getElem_setEntry k e s

section
variable {k : StationNo} {s : State} (before : RosterEntry)

/-- A newly lost member joins the lost set, and its loss is delivered (R38, R59). -/
theorem judgeEntry_lost (hl : isLost s k = true) (hn : member k s.roster.lost = false) :
    judgeEntry k before s =
      deliverNotice k (noticeCause s.tables.link.group (entryOf s k)) true
        { s with roster := { s.roster with lost := s.roster.lost ||| single k } } := by
  have hj : judgeLost k s = { s with roster := { s.roster with lost := s.roster.lost ||| single k } } := by
    unfold judgeLost; rw [if_pos hl]; rfl
  unfold judgeEntry; dsimp only
  rw [hj]
  simp [hn, entryOf]

/-- A peer that is not lost and has not left standing is no event (R37, R38). -/
theorem judgeEntry_quiet (hl : isLost s k = false)
    (hd : (standing s.tables.link.group before && !standing s.tables.link.group (entryOf s k)) = false) :
    judgeEntry k before s = judgeLost k s := by
  have loss : member k (judgeLost k s).roster.lost = false := by simp [judgeLost_roster, hl]
  have same : entryOf (judgeLost k s) k = entryOf s k := rfl
  unfold judgeEntry; dsimp only
  rw [loss, same, hd]; rfl

end

end Sys2Proof.Machine
end

section
/-! O60. A mismatch at a RUNNING station (R41, R42, R136). -/

namespace Sys2Proof.Machine

/-- The mismatch flag is set (R42). -/
def flagged (s : State) : State := { s with roster := { s.roster with mismatch := true } }

section
variable {f : Frame} {s : State} {kind : MismatchKind}

theorem judgeMismatch_none (h : mismatchOf s f = none) : judgeMismatch f s = s := by
  unfold judgeMismatch; rw [h]

/-- A mismatch raises its cause once a cycle (R42). -/
theorem judgeMismatch_again (h : s.roster.mismatch = true) : judgeMismatch f s = s := by
  unfold judgeMismatch
  split
  · rfl
  · exact if_pos h

theorem judgeMismatch_first (h : mismatchOf s f = some kind) (hn : s.roster.mismatch = false) :
    judgeMismatch f s = raiseCause .mismatch f.sender (some kind) (flagged s) := by
  unfold judgeMismatch; rw [h]
  exact if_neg (by simp [hn])

end

/-- The state in which a RUNNING frame of the own group, from a sender that was PRESENT, comes to the mismatch judgement of a RUNNING
station: it has raised no report, no loss and no departure (R33, R37, R38). -/
def heardRunning (f : Frame) (s : State) : State :=
  judgeLost f.sender (setEntry f.sender (entryFrom f) (tallyFrame f (closeReception .handedOver s)))

section
variable {f : Frame} {s : State} (hs : s.station = .running) (hr : f.state = .running) (hg : f.group = s.tables.link.group)
include hr hg

theorem judgeEntry_running (hp : (entryOf s f.sender).presence = .present) :
    judgeEntry f.sender (entryOf s f.sender) (hearFrame f.sender f s) =
      judgeLost f.sender (setEntry f.sender (entryFrom f) s) := by
  rw [hearFrame_present hp]
  refine judgeEntry_quiet _ ?_ ?_
  · simp [isLost, entryOf_setEntry, lostEntry, entryFrom, hr, hg]
  · simp [entryOf_setEntry, standing, isPresent, entryFrom, hr, hg]

include hs

/-- The kind of mismatch of such a frame, if it is one (R41). -/
theorem mismatchOf_heardRunning : mismatchOf (heardRunning f s) f =
    if member f.sender s.change.view = false then some .outsider
    else if f.set ≠ s.change.view ∨ f.profile ≠ s.change.profile then some .pair
    else none := if_pos ⟨hs, hg, hr⟩

/-- Such a frame without an optional part: the mismatch judgement, and behind it the refresh collection alone. -/
theorem exec_runningFrame (hp : s.pins.rstn = true) (hn : f.sender ≠ s.number) (hk : f.sender.val < stationCount s)
    (hx : s.link.rx = .waiting) (hc : f.linkCode = s.tables.link.linkCode) (hm : malformed s.tables.link.count f = false)
    (present : (entryOf s f.sender).presence = .present) (hb : f.part = .base) :
    let j := judgeMismatch f (heardRunning f s)
    ∃ l w, exec (.frameReceived f.sender (encodeFrame f)) s = .next
        { j with change := { j.change with collection := l }, now := { j.now with waiting := w } } ∧
      (j.now.waiting ≠ s.now.waiting → w = j.now.waiting ++ [.content f]) := by
  have hl : onLink s = true := by rw [onLink_iff]; exact .inr (.inl hs)
  obtain ⟨l, w, e, hw⟩ := handOver_judged (s := tallyFrame f (closeReception .handedOver s))
    (congrArg (judgeMismatch f) (judgeEntry_running hr hg present)) fun _ => .inr (.inl hb)
  exact ⟨l, w, (exec_validFrame hp hl hn hk hx hc hm).trans (congrArg _ e), hw⟩

end

/-- Settles O60: the sender's entry is no event, so the mismatch judgement alone acts, and the content of the frame behind it. -/
theorem mismatchTripsOnceACycle : Obligations.MismatchTripsOnceACycle := by
  intro f s hp hs hn hk hx hc hm hr hg present hb outsider pair row waits kind
  have met : outsider ∨ pair → mismatchOf (heardRunning f s) f = some kind := by
    intro h
    rw [mismatchOf_heardRunning hs hr hg]
    by_cases hv : member f.sender s.change.view = true
    · have differs : pair := h.resolve_left (by simp [outsider, hv])
      rw [if_neg (by simp [hv]), if_pos (not_and_or.1 differs.2)]
      simp [kind, hv]
    · simp [kind, hv]
  have unmet : ¬outsider → ¬pair → mismatchOf (heardRunning f s) f = none := by
    intro ho hq
    rw [mismatchOf_heardRunning hs hr hg, if_neg ho, if_neg]
    exact fun differs => hq ⟨by simpa [outsider] using ho, not_and_or.2 differs⟩
  obtain ⟨l, w, e, hw⟩ := exec_runningFrame hs hr hg hp hn hk hx hc hm present hb
  have running : (flagged (heardRunning f s)).station = .running := hs
  refine ⟨_, e, ?_⟩
  refine ⟨fun h => ?_, fun ho hq => ?_, fun hf => ?_, fun h hf ha => ?_, fun h hf ha => ?_⟩ <;> dsimp only
  · by_cases hf : s.roster.mismatch = true
    · rw [judgeMismatch_again (s := heardRunning f s) hf]; exact hf
    · rw [judgeMismatch_first (met h) (Bool.eq_false_iff.2 hf)]
      exact (steady_raiseCause ..).mismatch
  · rw [judgeMismatch_none (unmet ho hq)]; exact ⟨rfl, hs, rfl⟩
  · rw [judgeMismatch_again (s := heardRunning f s) hf]; exact ⟨hs, rfl⟩
  · rw [judgeMismatch_first (met h) hf] at hw ⊢
    rcases raiseCause_trips f.sender (some kind) running rfl ha with trips | ⟨held, host⟩
    · refine .inl ⟨trips.station, congrArg (·.first) trips.trip, congrArg (·.drive) trips.trip, trips.outputs.1, ?_⟩
      rw [← hs]; exact trips.reports
    · exact .inr ⟨held.pending, held.station.trans hs, host, held.behind hw⟩
  · rw [judgeMismatch_first (met h) hf] at hw ⊢
    rcases raiseCause_reports f.sender (some kind) running rfl ha with reports | ⟨held, host⟩
    · exact .inl reports
    · exact .inr ⟨held.pending, held.station.trans hs, host, held.behind hw⟩

end Sys2Proof.Machine
end

section
/-! O59. A newly lost member at a RUNNING station (R34, R38, R59, R136, R148). -/

namespace Sys2Proof.Machine

/-! ## The two blocks that a loss reaches (R59) -/

/-- A notice makes nothing of the slot NONE of a TRIPPED station (R68). -/
theorem takeNotice_tripped (x : StationNo) (why : NoticeCause) (loss : Bool) {s : State} (hs : s.station = .tripped)
    (hv : s.change.slot = Slot.vacant) : takeNotice x why loss s = s := by
  have idle : recheck s = s := by
    unfold recheck; exact if_neg (by simp [dropDue, hs])
  unfold takeNotice; dsimp only
  rw [hv]
  dsimp only [Slot.vacant]
  rw [idle, ite_self]

/-- State `t` is what a loss that has tripped the station leaves of state `s`, whatever the notice of it has found (R136). -/
def LossTrips (x : StationNo) (s t : State) : Prop :=
  ∃ u, u.link = s.link ∧ TrippedBy .peerLoss (rowOf s.tables .peerLoss).drive x none u t

theorem LossTrips.outcome {x : StationNo} {s t : State} (h : LossTrips x s t) :
    t.station = .tripped ∧ t.trip.first = some .peerLoss ∧ t.trip.entry = s.link.cycle ∧
      t.trip.drive = (rowOf s.tables .peerLoss).drive ∧ t.change.slot = Slot.vacant ∧ t.change.view = 0 ∧ t.gate = Gate.off ∧
      t.carrier = Carrier.stopped ∧ t.setpoint = SetpointUnit.empty := by
  obtain ⟨u, link, trips⟩ := h
  rw [trips.trip, trips.change, ← link]
  exact ⟨trips.station, rfl, rfl, rfl, rfl, rfl, trips.outputs⟩

theorem CauseWaits.of_free {r : Raised} {s t : State} {n : Nat} (h : CauseWaits r { s with free := n } t) : CauseWaits r s t :=
  ⟨h.pending, h.station, h.roster, h.gate, h.waiting⟩

section
variable {s : State} (x : StationNo) (why : NoticeCause) (hs : s.station = .running)
include hs

/-- The Trip Unit acts first: a trip entry leaves the notice nothing. -/
theorem trips_then_notice (hr : (rowOf s.tables .peerLoss).action = .trip) :
    let t := takeNotice x why true (raiseCause .peerLoss x none s)
    LossTrips x s t ∨ CauseWaits ⟨.peerLoss, x, none⟩ s t := by
  intro t
  rcases raiseCause_trips x none hs rfl hr with trips | ⟨held, -⟩
  · have same : t = raiseCause .peerLoss x none s :=
      takeNotice_tripped x why true trips.station (congrArg (·.slot) trips.change)
    rw [same]; exact .inl ⟨s, rfl, trips⟩
  · obtain ⟨station, roster, -, gate, -⟩ := takeNotice_keeps x why true (raiseCause .peerLoss x none s)
    exact .inr ⟨held.pending, station.trans held.station, roster.trans held.roster, gate.trans held.gate,
      (congrArg (·.waiting) (now_takeNotice ..)).trans held.waiting⟩

/-- The Change Unit acts first: the notice leaves the station RUNNING, and the trip entry finds the slot that it has left. -/
theorem notice_then_trips (hr : (rowOf s.tables .peerLoss).action = .trip) :
    let t := raiseCause .peerLoss x none (takeNotice x why true s)
    LossTrips x s t ∨ CauseWaits ⟨.peerLoss, x, none⟩ s t := by
  have now := now_takeNotice x why true s
  have st := steady_takeNotice x why true s
  obtain ⟨station, roster, -, gate, -⟩ := takeNotice_keeps x why true s
  generalize takeNotice x why true s = u at now st station roster gate ⊢
  rcases raiseCause_trips x none (station.trans hs) rfl (by rw [st.tables]; exact hr) with trips | ⟨held, -⟩
  · rw [st.tables] at trips; exact .inl ⟨u, st.link, trips⟩
  · exact .inr ⟨by rw [← st.pending]; exact held.pending, held.station.trans station, held.roster.trans roster,
      held.gate.trans gate, by rw [held.waiting, now]⟩

/-- Under a TRIP row a loss trips the station or waits, whichever block acts first (R59, R139; log entries 4, 32). -/
theorem deliverNotice_trips (hr : (rowOf s.tables .peerLoss).action = .trip) :
    LossTrips x s (deliverNotice x why true s) ∨ CauseWaits ⟨.peerLoss, x, none⟩ s (deliverNotice x why true s) := by
  unfold deliverNotice chooseFirst; dsimp only; simp only [if_true]
  repeat' split
  · exact (trips_then_notice (s := { s with free := s.free + 1 }) x why hs hr).imp id CauseWaits.of_free
  · exact (notice_then_trips (s := { s with free := s.free + 1 }) x why hs hr).imp id CauseWaits.of_free
  · exact trips_then_notice x why hs hr

/-- Under a RESPACE row and with the slot NONE a loss builds the automatic DROP, and nothing else (R68, R70). -/
theorem deliverNotice_drops (hr : (rowOf s.tables .peerLoss).action = .respace) (hv : s.change.slot.state = .vacant)
    (hl : s.roster.lost ≠ 0) : deliverNotice x why true s = setSlot (dropProposal s) s := by
  have due : dropDue s = true := by simpa [dropDue, hs, hr, hv] using hl
  unfold deliverNotice; dsimp only
  rw [if_neg (fun h => h.2.2 hv), if_pos rfl, raiseCause_idle _ _ _ (by simp [actsOn, hr])]
  unfold takeNotice recheck; dsimp only
  rw [hv, due]; rfl

end

/-! ## A newly lost member (R34, R38) -/

/-- The lost set with a member that has just been judged lost. -/
def withLost (k : StationNo) (s : State) : State :=
  { s with roster := { s.roster with lost := s.roster.lost ||| single k } }

section
variable {k : StationNo} {s : State} (before : RosterEntry) (hs : s.station = .running) (hl : isLost s k = true)
  (hn : member k s.roster.lost = false)
include hs hl hn

theorem judgeEntry_trips (hr : (rowOf s.tables .peerLoss).action = .trip) :
    LossTrips k s (judgeEntry k before s) ∨ CauseWaits ⟨.peerLoss, k, none⟩ (withLost k s) (judgeEntry k before s) := by
  rw [judgeEntry_lost before hl hn]
  exact deliverNotice_trips (s := withLost k s) k _ hs hr

theorem judgeEntry_drops (hr : (rowOf s.tables .peerLoss).action = .respace) (hv : s.change.slot.state = .vacant) :
    judgeEntry k before s = setSlot (dropProposal (withLost k s)) (withLost k s) := by
  rw [judgeEntry_lost before hl hn]
  refine deliverNotice_drops (s := withLost k s) k _ hs hr hv fun e => ?_
  have := set_eq_zero.1 e k
  simp [withLost] at this

end

/-- The new set of the DROP leaves the lost member out (R68). -/
theorem not_member_dropProposal (k : StationNo) (s : State) : member k (dropProposal (withLost k s)).newSet = false := by
  show member k (without s.change.view (s.roster.lost ||| single k)) = false
  simp

/-! ## The frame that shows a loss (R28, R38) -/

/-- The state in which the entry of a frame's sender that was PRESENT comes to its judgement: no report has been raised (R33). -/
def heardLost (f : Frame) (s : State) : State :=
  setEntry f.sender (entryFrom f) (tallyFrame f (closeReception .handedOver s))

section
variable {f : Frame} {s : State} (hv : member f.sender s.change.view = true) (hn : f.sender ≠ s.number)
  (hd : f.state ≠ .running ∨ f.group ≠ s.tables.link.group)
include hv hn hd

theorem isLost_heardLost : isLost (heardLost f s) f.sender = true := by
  have view : member f.sender (heardLost f s).change.view = true := hv
  have other : f.sender ≠ (heardLost f s).number := hn
  have entry : entryOf (heardLost f s) f.sender = entryFrom f := entryOf_setEntry ..
  have group : (heardLost f s).tables.link.group = s.tables.link.group := rfl
  rcases hd with hd | hd <;> simp [isLost, view, other, entry, group, lostEntry, entryFrom, hd]

/-- A frame that shows a loss meets no mismatch (R41), so the judgement of the entry is all, and behind it the refresh collection of a
frame that brings nothing else. -/
theorem exec_lostFrame (hs : s.station = .running) (hp : s.pins.rstn = true) (hk : f.sender.val < stationCount s)
    (hx : s.link.rx = .waiting) (hc : f.linkCode = s.tables.link.linkCode) (hm : malformed s.tables.link.count f = false)
    (present : (entryOf s f.sender).presence = .present) :
    let j := judgeEntry f.sender (entryOf s f.sender) (heardLost f s)
    ∃ t, exec (.frameReceived f.sender (encodeFrame f)) s = .next t ∧
      ((j.now.waiting = s.now.waiting → inGroup j = false ∨ f.part = .base ∨ f.group ≠ j.tables.link.group) →
        ∃ l w, t = { j with change := { j.change with collection := l }, now := { j.now with waiting := w } } ∧
          (j.now.waiting ≠ s.now.waiting → w = j.now.waiting ++ [.content f])) := by
  intro j
  have hl : onLink s = true := by rw [onLink_iff]; exact .inr (.inl hs)
  have judged : judgeMismatch f (judgeEntry f.sender (entryOf s f.sender) (hearFrame f.sender f
      (tallyFrame f (closeReception .handedOver s)))) = j := by
    rw [hearFrame_present (s := tallyFrame f (closeReception .handedOver s)) present]
    exact judgeMismatch_none
      (mismatchOf_none_of_lost (entryOf_setEntry ..) (isLost_heardLost hv hn hd) (steady_judgeEntry ..).tables)
  exact ⟨_, exec_validFrame hp hl hn hk hx hc hm,
    fun h => handOver_judged (s := tallyFrame f (closeReception .handedOver s)) judged h⟩

end

/-! ## The miss that shows a loss (R34, R38) -/

/-- The state in which a miss that makes an entry ABSENT is judged: PEER_ABSENT has been posted (R34). -/
def missed (k : StationNo) (s : State) : State :=
  post (.peerAbsent (entryOf s k).lastHeard (member k s.change.view)) k
    (setEntry k { entryOf s k with presence := .absent, misses := s.tables.link.missLimit } (closeWindow k s))

section
variable {k : StationNo} {s : State} (hs : s.station = .running) (hn : k ≠ s.number)
include hn

theorem isLost_missed (hv : member k s.change.view = true) : isLost (missed k s) k = true := by
  have absent : entryOf (missed k s) k = { entryOf s k with presence := .absent, misses := s.tables.link.missLimit } :=
    entryOf_setEntry ..
  have view : member k (missed k s).change.view = true := hv
  have other : k ≠ (missed k s).number := hn
  simp [isLost, view, other, absent, lostEntry]

include hs

/-- The window end at which a PRESENT entry reaches the miss limit on the link: PEER_ABSENT, and the judgement of the entry. -/
theorem exec_absence (hp : s.pins.rstn = true) (hk : k.val < stationCount s) (hx : s.link.rx ≠ .handedOver)
    (present : (entryOf s k).presence = .present) (hm : s.tables.link.missLimit ≤ (entryOf s k).misses + 1) :
    exec (.windowEnd k) s = .next (judgeEntry k (entryOf s k) (missed k s)) := by
  have hl : onLink s = true := by rw [onLink_iff]; exact .inr (.inl hs)
  have miss : missFrame k (closeWindow k s) = missed k s := missFrame_absent present hm
  have absent : entryOf (missed k s) k = { entryOf s k with presence := .absent, misses := s.tables.link.missLimit } :=
    entryOf_setEntry ..
  have before : entryOf (closeWindow k s) k = entryOf s k := rfl
  have onLink' : onLink (closeWindow k s) = true := hl
  rw [exec_windowEnd k hp, if_neg (not_offline_of_onLink hl), endWindow_peer (receiving_of_onLink hl) hn hk, if_neg hx]
  unfold takeMiss; dsimp only
  rw [miss, before, if_pos (by simp [onLink', isPresent, present, absent])]

end

/-- Settles O59: the frame or the miss makes the member lost, and the loss is delivered to both blocks in either order. -/
theorem lostMemberTripsOrIsDropped : Obligations.LostMemberTripsOrIsDropped := by
  refine ⟨fun f s hp hs hn hk hx hc hm hd hv present hl => ?_, fun k s hp hs hn hk hx hv present hm hl => ?_⟩
  · have lost := isLost_heardLost hv hn hd
    obtain ⟨t, run, after⟩ := exec_lostFrame hv hn hd hs hp hk hx hc hm present
    refine ⟨t, run, fun ha => ?_, fun ha hvac hb => ?_⟩
    · rcases judgeEntry_trips (s := heardLost f s) (entryOf s f.sender) hs lost hl ha with trips | waits
      · obtain ⟨l, w, rfl, -⟩ := after fun _ => .inl (by simp [inGroup, trips.outcome.1])
        exact .inl trips.outcome
      · obtain ⟨l, w, rfl, hw⟩ := after fun e =>
          absurd (List.append_right_eq_self.1 (waits.waiting.symm.trans e)) (List.cons_ne_nil _ _)
        exact .inr ⟨waits.pending, waits.station.trans hs, waits.behind hw, congrArg (·.lost) waits.roster, waits.gate⟩
    · rw [judgeEntry_drops (s := heardLost f s) (entryOf s f.sender) hs lost hl ha hvac] at after
      obtain ⟨l, w, rfl, -⟩ := after fun _ => .inr hb
      exact ⟨hs, rfl, rfl, rfl, not_member_dropProposal f.sender _, rfl⟩
  · have lost := isLost_missed hn hv
    refine ⟨_, exec_absence hs hn hp hk hx present hm, ?_, fun ha => ?_, fun ha hvac => ?_⟩
    · rw [(steady_judgeEntry ..).entries]
      exact congrArg (·.presence) (getElem_setEntry k _ (closeWindow k s))
    · rcases judgeEntry_trips (entryOf s k) (s := missed k s) hs lost hl ha with trips | waits
      · obtain ⟨station, first, entry, drive, slot, view, gate, -⟩ := trips.outcome
        exact .inl ⟨station, first, entry, drive, slot, view, gate⟩
      · exact .inr ⟨waits.pending, waits.station.trans hs, waits.waiting, congrArg (·.lost) waits.roster, waits.gate⟩
    · rw [judgeEntry_drops (s := missed k s) _ hs lost hl ha hvac]
      refine ⟨hs, rfl, rfl, rfl, not_member_dropProposal k _, ?_⟩
      rw [← hv]; rfl

end Sys2Proof.Machine
end

section
/-! The plain host commands (O12) and PROPOSE (O44). -/

namespace Sys2Proof.Machine

/-! ## NOP, HOLD, RELEASE, RECALL and the unknown codes (R73, R162, R165) -/

/-- The station that has taken a command: its code is the last command (R162). -/
def withCommand (code : Byte) (s : State) : State := { s with host := { s.host with lastCommand := code } }

theorem issue_eq (code : Byte) (f : State → State) (s : State) : issue code f s = f (withCommand code s) := rfl

theorem exec_nop {s : State} (h : s.pins.rstn = true) : exec .nop s = .next (issue 0x00 (setResult .done 0) s) :=
  whilePowered_on _ h

theorem exec_hold {s : State} (h : s.pins.rstn = true) : exec .hold s = .next (issue 0x05 (holdStep true) s) :=
  whilePowered_on _ h

theorem exec_release {s : State} (h : s.pins.rstn = true) : exec .release s = .next (issue 0x06 (holdStep false) s) :=
  whilePowered_on _ h

theorem exec_recallResult {s : State} (h : s.pins.rstn = true) : exec .recallResult s = .next (recallStep s) :=
  whilePowered_on _ h

theorem exec_unknownCommand {code : Byte} {s : State} (hc : ¬code < 0x0E#8) (h : s.pins.rstn = true) :
    exec (.unknownCommand code) s = .next (issue code (setResult .refusedUnknown code) s) :=
  (if_neg hc).trans (whilePowered_on _ h)

theorem exec_unknownCommand_illFormed {code : Byte} (hc : code < 0x0E#8) (s : State) :
    exec (.unknownCommand code) s = .fault (.notACommand code) := if_pos hc

theorem holdStep_offline (value : Bool) {s : State} (h : s.station = .offline) :
    holdStep value s = setResult .refusedState 0 s := if_pos h

theorem flag_byte (b : Bool) : (0#7 ++ flag b : Byte) = if b then 1 else 0 := by cases b <;> rfl

/-- HOLD and RELEASE outside OFFLINE: the flag takes its value, and the detail is the value before. -/
theorem holdStep_online (value : Bool) {s : State} (h : s.station ≠ .offline) :
    holdStep value s =
      setResult .done (if s.change.hold then 1 else 0) { s with change := { s.change with hold := value } } := by
  unfold holdStep; rw [if_neg h]; dsimp only; rw [flag_byte]

/-- The first three of eight bytes replaced. -/
theorem set_first_three {α : Type} (v : Vector α 8) (a b c : α) :
    ((v.set 0 a).set 1 b).set 2 c = #v[a, b, c, v[3], v[4], v[5], v[6], v[7]] := by
  refine Vector.ext fun i hi => ?_
  match i, hi with
  | 0, _ | 1, _ | 2, _ | 3, _ | 4, _ | 5, _ | 6, _ | 7, _ => simp

/-- Settles O12: one equation for each command, and the range of the unknown codes. -/
theorem plainHostCommands : Obligations.PlainHostCommands := by
  refine ⟨fun s hp => ⟨exec_nop hp, fun ho => ⟨?_, ?_⟩, fun ho => ⟨?_, ?_⟩, ?_⟩,
    fun code s => ⟨fun hc hp => exec_unknownCommand (BitVec.not_lt.2 hc) hp, fun hc => exec_unknownCommand_illFormed hc s⟩⟩
  · rw [exec_hold hp, issue_eq, holdStep_offline (s := withCommand 0x05 s) true ho]; rfl
  · rw [exec_release hp, issue_eq, holdStep_offline (s := withCommand 0x06 s) false ho]; rfl
  · rw [exec_hold hp, issue_eq, holdStep_online (s := withCommand 0x05 s) true ho]; rfl
  · rw [exec_release hp, issue_eq, holdStep_online (s := withCommand 0x06 s) false ho]; rfl
  · rw [exec_recallResult hp, recallStep, set_first_three]

/-! ## PROPOSE (R48, R49, R164) -/

theorem exec_propose {s : State} (h : s.pins.rstn = true) : exec .propose s = .next (issue 0x04 proposeStep s) :=
  whilePowered_on _ h

/-- The set and the profile of a PROPOSE fit (R48, check 3). -/
theorem profileUnfit_false_iff (t : Tables) (set : StationSet) (p : Byte) :
    profileUnfit t set p = false ↔
      (set = 0 ↔ p = 0) ∧ p.toNat ≤ 7 ∧ (p ≠ 0 → (profileAt t (p.setWidth 3)).configured = true) := by
  have range : ¬7#8 < p ↔ p.toNat ≤ 7 := by rw [BitVec.lt_def]; exact Nat.not_lt
  rw [← range]
  simp [profileUnfit]
  tauto

section
variable {s : State} {set : StationSet}

/-- Every member of the set is the station itself or in standing (R48, check 4). -/
theorem memberNotStanding_none (h : ∀ k, member k set = true → k = s.number ∨ inStanding s k = true) :
    memberNotStanding s set = none := by
  refine List.find?_eq_none.2 fun k hk => ?_
  rcases h k ((mem_members k set).1 hk) with e | e <;> simp [e]

/-- The lowest member of the set that is neither (R48, check 4). -/
theorem memberNotStanding_lowest {k : StationNo} (hk : member k set = true) (hn : ¬(k = s.number ∨ inStanding s k = true))
    (hl : ∀ j : StationNo, j < k → member j set = true → j = s.number ∨ inStanding s j = true) :
    memberNotStanding s set = some k := by
  refine find?_of_sorted (members_sorted set) ((mem_members k set).2 hk) ?_ fun j hj hjk => ?_
  · simpa [not_or] using hn
  · rcases hl j hjk ((mem_members j set).1 hj) with e | e <;> simp [e]

end

section
variable {s : State}

theorem proposeStep_outside (hg : inGroup s = false) : proposeStep s = refuseState s := if_pos hg

variable (hg : inGroup s = true)
include hg

theorem proposeStep_busy (hc : s.change.slot.state ≠ .vacant) :
    proposeStep s = setResult .busy ((slotCode s.change.slot.state).setWidth 8) s := by
  unfold proposeStep; dsimp only; rw [if_neg (by simp [hg]), if_pos hc]

variable (hc : s.change.slot.state = .vacant)
include hc

theorem proposeStep_unfit (hf : profileUnfit s.tables (proposeSet s.host.args) (proposeProfile s.host.args) = true) :
    proposeStep s = setResult .refusedProfile (proposeProfile s.host.args) s := by
  unfold proposeStep; dsimp only; rw [if_neg (by simp [hg]), if_neg (not_not.2 hc), if_pos hf]

variable (hf : profileUnfit s.tables (proposeSet s.host.args) (proposeProfile s.host.args) = false)
include hf

theorem proposeStep_member {k : StationNo} (hk : memberNotStanding s (proposeSet s.host.args) = some k) :
    proposeStep s = setResult .refusedMember (natByte k.val) s := by
  unfold proposeStep; dsimp only; rw [if_neg (by simp [hg]), if_neg (not_not.2 hc), if_neg (by simp [hf]), hk]

variable (hm : memberNotStanding s (proposeSet s.host.args) = none)
include hm

theorem proposeStep_unchanged
    (hs : proposeSet s.host.args = s.change.view ∧ (proposeProfile s.host.args).setWidth 3 = s.change.profile) :
    proposeStep s = setResult .refusedNoChange 0 s := by
  unfold proposeStep; dsimp only; rw [if_neg (by simp [hg]), if_neg (not_not.2 hc), if_neg (by simp [hf]), hm]
  exact if_pos hs

theorem proposeStep_pends
    (hs : ¬(proposeSet s.host.args = s.change.view ∧ (proposeProfile s.host.args).setWidth 3 = s.change.profile)) :
    proposeStep s =
      setResult .done 0 (setSlot (localProposal s false (proposeSet s.host.args) ((proposeProfile s.host.args).setWidth 3)
        (electorateOf s (s.change.view ||| proposeSet s.host.args))) s) := by
  unfold proposeStep; dsimp only; rw [if_neg (by simp [hg]), if_neg (not_not.2 hc), if_neg (by simp [hf]), hm]
  exact if_neg hs

end

/-- The electorate of a local proposal (R49). -/
theorem member_electorate_union (s : State) (set : StationSet) (k : StationNo) :
    member k (electorateOf s (s.change.view ||| set)) = true ↔
      (member k s.change.view = true ∨ member k set = true) ∧ (k = s.number ∨ inStanding s k = true) := by
  rw [mem_electorateOf, member_or, Bool.or_eq_true]

/-- Settles O44: the five checks, each behind those before it, and the proposal that passes them. -/
theorem proposeChecksThenPends : Obligations.ProposeChecksThenPends := by
  intro s hp newSet p newProfile fits stands same refused
  rw [exec_propose hp, issue_eq]
  have unfit : profileUnfit s.tables newSet p = false ↔ fits := profileUnfit_false_iff s.tables newSet p
  refine ⟨fun hg => ?_, fun hg hc => ?_, fun hg hc hf => ?_, fun k hg hc hf hk hn hl => ?_, fun hg hc hf hm hs => ?_,
    fun hg hc hf hm hs => ⟨_, member_electorate_union (withCommand 0x04 s) newSet, ?_⟩⟩
  · rw [proposeStep_outside (s := withCommand 0x04 s) hg]; rfl
  · rw [proposeStep_busy (s := withCommand 0x04 s) hg hc]; rfl
  · rw [proposeStep_unfit (s := withCommand 0x04 s) hg hc (Bool.eq_true_of_not_eq_false fun e => hf (unfit.1 e))]; rfl
  · rw [proposeStep_member (s := withCommand 0x04 s) hg hc (unfit.2 hf) (memberNotStanding_lowest hk hn hl)]; rfl
  · rw [proposeStep_unchanged (s := withCommand 0x04 s) hg hc (unfit.2 hf) (memberNotStanding_none hm) hs]; rfl
  · rw [proposeStep_pends (s := withCommand 0x04 s) hg hc (unfit.2 hf) (memberNotStanding_none hm) hs]; rfl

end Sys2Proof.Machine
end

section
/-! The verdict on a remote proposal (O45), and the parts of a frame at the Change Unit: proposals (O46) and votes (O47). -/

namespace Sys2Proof.Machine

/-! ## The verdict (R54) -/

/-- The test MEMBER of a verdict fails for an entry (R54). -/
theorem memberUnfit_iff (group : BitVec 2) (e : RosterEntry) :
    memberUnfit group e = true ↔
      e.presence = .absent ∨ e.presence = .present ∧ (e.state = some .tripped ∨ e.group ≠ group) := by
  simp [memberUnfit, advertises, inOtherGroup, isPresent, or_assoc, ← and_or_left]

/-- Some other member of the set fails the test MEMBER (R54). -/
theorem any_memberUnfit_iff (s : State) (set : StationSet) :
    ((members set).any fun k => k != s.number && memberUnfit s.tables.link.group (entryOf s k)) = true ↔
      ∃ k : StationNo, k ≠ s.number ∧ member k set = true ∧
        (s.roster.entries[k].presence = .absent ∨ s.roster.entries[k].presence = .present ∧
          (s.roster.entries[k].state = some .tripped ∨ s.roster.entries[k].group ≠ s.tables.link.group)) := by
  simp only [List.any_eq_true, mem_members, Bool.and_eq_true, bne_iff_ne, memberUnfit_iff, entryOf]
  exact exists_congr fun k => and_left_comm

/-- Settles O45: the five tests of the definition are those of R54, and the first that holds decides. -/
theorem verdictTestsInOrder : Obligations.VerdictTestsInOrder := by
  intro s f p late basis unfit unconfigured
  have hl : cyclesTo s p.effective < 2 ↔ late := Iff.rfl
  have hb : (f.set ≠ s.change.view ∨ f.profile ≠ s.change.profile) ↔ basis := not_and_or.symm
  have hu := any_memberUnfit_iff s p.newSet
  have hc : (member s.number p.newSet = true ∧ (profileAt s.tables p.newProfile).configured = false) ↔ unconfigured := Iff.rfl
  unfold verdictOn
  rw [if_congr hu rfl rfl, if_congr hc rfl rfl]
  by_cases h1 : late
  · rw [if_pos (hl.2 h1)]; simp [h1]
  rw [if_neg (mt hl.1 h1)]
  by_cases h2 : basis
  · rw [if_pos (hb.2 h2)]; simp [h1, h2]
  rw [if_neg (mt hb.1 h2)]
  by_cases h3 : unfit
  · rw [if_pos h3]; simp [h1, h2, h3]
  rw [if_neg h3]
  by_cases h4 : unconfigured
  · rw [if_pos h4]; simp [h1, h2, h3, h4]
  rw [if_neg h4]
  cases h5 : s.change.hold <;> simp [h1, h2, h3, h4]

/-! ## A quiet frame brings its part to the Change Unit (R28, R29, R33, R38) -/

section
variable {f : Frame} {s : State} (q : Quiet f s)
include q

/-- The entry that a quiet frame leaves is in standing and makes no member of the view lost. -/
theorem Quiet.entry {u : State} (he : entryOf u f.sender = entryFrom f) (ht : u.tables = s.tables)
    (hc : u.change.view = s.change.view) :
    isLost u f.sender = false ∧ standing u.tables.link.group (entryOf u f.sender) = true := by
  rcases q.sender with hr | hj
  · simp [isLost, lostEntry, standing, isPresent, he, entryFrom, ht, hr, q.group]
  · simp [isLost, lostEntry, standing, isPresent, he, entryFrom, ht, hj, q.group, hc, q.outside hj]

theorem Quiet.mismatchOf {u : State} (hs : u.station = s.station) (hc : u.change = s.change) :
    mismatchOf u f = none := by
  unfold Machine.mismatchOf
  by_cases h : f.state = .running ∧ s.station = .running
  · obtain ⟨view, set, profile⟩ := q.agrees h.1 h.2
    simp [hc, view, set, profile]
  · refine if_neg fun g => h ⟨g.2.2, hs ▸ g.1⟩

/-- The state in which a quiet frame has passed the judgements of its hand-over: the entry, the lost set and the report (R33). -/
theorem Quiet.judged :
    let u := tallyFrame f (closeReception .handedOver s)
    judgeMismatch f (judgeEntry f.sender (entryOf u f.sender) (hearFrame f.sender f u)) =
      { heard f s with change := s.change } := by
  intro u
  obtain ⟨v, hv⟩ : ∃ v, v = hearFrame f.sender f u := ⟨_, rfl⟩
  have hv' := hv.trans (hearFrame_eq ..)
  have entry : entryOf v f.sender = entryFrom f := by
    rw [hv']; exact (getElem_set_station ..).trans (if_pos rfl)
  obtain ⟨lost, stands⟩ := q.entry entry (by rw [hv']; rfl) (by rw [hv']; rfl)
  rw [← hv, judgeEntry_quiet _ lost (by rw [stands]; simp)]
  rw [judgeMismatch_none (q.mismatchOf (by rw [judgeLost_station, hv']; rfl)
    (by rw [judgeLost_change, hv']; rfl))]
  unfold judgeLost; rw [lost, hv']; rfl

/-- Its pair joins the refresh collection under a RUNNING sender (R29). -/
theorem Quiet.collects :
    { heard f s with change := { s.change with collection := collected f { heard f s with change := s.change } } } =
      heard f s := by
  have group : f.group = ({ heard f s with change := s.change } : State).tables.link.group := q.group
  unfold collected; simp only [group, true_and]; rfl

/-- A valid quiet frame is its content, taken in the state that the judgements leave (R28). -/
theorem exec_quietFrame (hp : s.pins.rstn = true) (v : ValidInWindow f s) :
    exec (.frameReceived f.sender (encodeFrame f)) s = .next (takeContent f { heard f s with change := s.change }) := by
  rw [exec_validFrame hp v.onLink v.other v.below v.waiting v.code v.wellFormed]
  unfold handOver; dsimp only
  rw [q.judged]; exact congrArg _ (if_pos rfl)

end

section
variable {f : Frame} {s : State} (hg : f.group = s.tables.link.group) (hi : inGroup s = true)
include hg hi

/-- The content of an own-group frame with a proposal part (R29, R52). -/
theorem takeContent_proposal {p : Proposal} (hp : f.part = .proposal p) :
    takeContent f s = takeProposal f p { s with change := { s.change with collection := collected f s } } := by
  unfold takeContent collected; dsimp only
  by_cases hr : f.state = .running <;> simp only [hg, hr, if_true, if_false, and_true, and_false, hp] <;> exact if_pos hi

/-- The content of an own-group frame with a vote part (R29, R52). -/
theorem takeContent_vote {v : Vote} (hv : f.part = .vote v) :
    takeContent f s = takeVote f v { s with change := { s.change with collection := collected f s } } := by
  unfold takeContent collected; dsimp only
  by_cases hr : f.state = .running <;> simp only [hg, hr, if_true, if_false, and_true, and_false, hv] <;> exact if_pos hi

end

/-! ## Proposals (R51, R52, R53) -/

section
variable {f : Frame} {p : Proposal} {s : State}

theorem takeProposal_ignored (h : ¬(1 ≤ cyclesTo s p.effective ∧ cyclesTo s p.effective ≤ 15) ∨
    s.change.slot.state = .opened ∨ s.change.slot.state = .agreed) : takeProposal f p s = s := by
  unfold takeProposal; dsimp only; split
  · rcases h with h | h | h
    · contradiction
    · rw [h]
    · rw [h]
  · rfl

variable (ha : 1 ≤ cyclesTo s p.effective ∧ cyclesTo s p.effective ≤ 15)
include ha

theorem takeProposal_vacant (hc : s.change.slot.state = .vacant) : takeProposal f p s = adopt f p s := by
  unfold takeProposal; dsimp only; rw [if_pos ha, hc]

/-- The same automatic DROP makes room in silence (R52). -/
theorem takeProposal_silent (hc : s.change.slot.state = .pending) (hs : s.change.slot.automatic = true ∧
    s.change.slot.newSet = p.newSet ∧ s.change.slot.newProfile = p.newProfile) :
    takeProposal f p s = adopt f p (setSlot Slot.vacant s) := by
  unfold takeProposal; dsimp only; rw [if_pos ha, hc]; exact if_pos hs

/-- Any other PENDING proposal closes WITHDRAWN (R52). -/
theorem takeProposal_withdraws (hc : s.change.slot.state = .pending) (hs : ¬(s.change.slot.automatic = true ∧
    s.change.slot.newSet = p.newSet ∧ s.change.slot.newProfile = p.newProfile)) :
    takeProposal f p s = adopt f p (closeSlot .withdrawn f.sender .contended s) := by
  unfold takeProposal; dsimp only; rw [if_pos ha, hc]; exact if_neg hs

/-- A proposal that is taken fills the slot in every case, behind the report of a PENDING proposal that it does not repeat. -/
theorem takeProposal_adopts (hc : s.change.slot.state = .vacant ∨ s.change.slot.state = .pending) :
    let silent : Prop :=
      s.change.slot.automatic = true ∧ s.change.slot.newSet = p.newSet ∧ s.change.slot.newProfile = p.newProfile
    ∃ l, takeProposal f p s = { s with
        change := { s.change with slot := judgeTally (adoptedSlot s f p) }
        host := { s.host with
          reports := postAll (l ++ [reportOf
            (.changeOpened (cyclesTo s p.effective) p.sequence true false (adoptedSlot s f p).verdict) f.sender s])
            s.host.reports } } ∧
      (s.change.slot.state = .vacant ∨ silent → l = []) ∧
      (s.change.slot.state = .pending → ¬silent → l = [reportOf (.changeClosed .withdrawn s.change.slot.sequence
        s.change.slot.remote s.change.slot.automatic .contended) f.sender s]) := by
  intro silent
  rcases hc with hv | hn
  · refine ⟨[], ?_, fun _ => rfl, fun h => by rw [hv] at h; cases h⟩
    rw [takeProposal_vacant ha hv]; rfl
  · by_cases hs : silent
    · refine ⟨[], ?_, fun _ => rfl, fun _ h => absurd hs h⟩
      rw [takeProposal_silent ha hn hs]; rfl
    · refine ⟨[_], ?_, fun h => ?_, fun _ _ => rfl⟩
      · rw [takeProposal_withdraws ha hn hs]; rfl
      · rcases h with h | h
        · rw [hn] at h; cases h
        · exact absurd h hs

end

/-- The tally of an adopted proposal: every elector but the sender is this accepting station (R53; log entry 13). -/
theorem state_adopted (s : State) (f : Frame) (p : Proposal) :
    let complete : Prop := ∀ k, member k p.electorate = true → k ≠ f.sender → member k (adoptedSlot s f p).accepts = true
    (complete → (judgeTally (adoptedSlot s f p)).state = .agreed) ∧
      (¬complete → (judgeTally (adoptedSlot s f p)).state = .opened) := by
  have e := judgeTally_opened (c := adoptedSlot s f p) rfl
  have t := tallyComplete_iff (adoptedSlot s f p)
  exact ⟨fun h => e.trans (if_pos (t.2 h)), fun h => e.trans (if_neg fun q => h (t.1 q))⟩

/-- Settles O46: the two cases of a proposal part, and the frame that brings one. -/
theorem proposalIsAdoptedOrIgnored : Obligations.ProposalIsAdoptedOrIgnored := by
  refine ⟨fun f p s => ⟨takeProposal_ignored, fun ha hc => ?_⟩, fun f p s hp hv hq hpart => ?_⟩
  · obtain ⟨l, e, quiet, withdrawn⟩ := takeProposal_adopts (f := f) ha hc
    obtain ⟨agreed, opened⟩ := state_adopted s f p
    dsimp only; rw [e]
    refine ⟨?_, agreed, opened, fun h => ?_, fun h hs => ?_⟩
    · dsimp only; rw [judgeTally_eq]; rfl
    · dsimp only; rw [quiet h]; rfl
    · dsimp only; rw [withdrawn h hs]; rfl
  · rw [exec_quietFrame hq hp hv, takeContent_proposal (s := { heard f s with change := s.change }) hq.group hq.inGroup hpart]
    exact congrArg (fun u => Host.Outcome.next (takeProposal f p u)) hq.collects

/-! ## Votes (R56, R57, R58) -/

/-- A close posts its report, and leaves the slot NONE or with the automatic DROP of the re-check (R66, R70). -/
theorem closes_of_closeAndRecheck {o : ChangeOutcome} {x : StationNo} {why : CloseReason} {s t : State}
    (e : t = closeAndRecheck o x why s) :
    t.host.reports = arrive s.host.reports (reportOf (.changeClosed o s.change.slot.sequence s.change.slot.remote
        s.change.slot.automatic why) x s) ∧
      (t.change.slot = Slot.vacant ∨
        s.station = .running ∧ t.change.slot.state = .pending ∧ t.change.slot.automatic = true) := by
  obtain ⟨c, hc, ec⟩ := closeAndRecheck_eq o x why s
  rw [e, ec]
  exact ⟨rfl, hc.imp_right fun ⟨running, _, _, pending, automatic⟩ => ⟨running, pending, automatic⟩⟩

section
variable {f : Frame} {v : Vote} {s : State}

theorem namesSlot_iff (c : Slot) (v : Vote) :
    namesSlot c v = true ↔ c.proposer = v.proposer ∧ c.sequence = some v.sequence := by
  simp [namesSlot]

/-- A vote on a slot that is not OPEN, or from outside the electorate. -/
theorem takeVote_outside (h : s.change.slot.state ≠ .opened ∨ ¬member f.sender s.change.slot.electorate = true) :
    takeVote f v s = s := by
  unfold takeVote; exact if_neg fun q => h.elim (fun h => h q.1) fun h => h q.2

variable (ho : s.change.slot.state = .opened) (he : member f.sender s.change.slot.electorate = true)
include ho he

section
variable (hn : s.change.slot.proposer = v.proposer ∧ s.change.slot.sequence = some v.sequence)
include hn

theorem takeVote_accept (ha : v.verdict = .accept) (hp : f.sender ≠ s.change.slot.proposer) :
    takeVote f v s =
      setSlot (judgeTally { s.change.slot with accepts := adjoin f.sender s.change.slot.accepts }) s := by
  unfold takeVote; dsimp only
  rw [if_pos ⟨ho, he⟩, if_pos ((namesSlot_iff ..).2 hn), if_pos ha, if_neg hp]

theorem takeVote_refusal (hr : v.verdict ≠ .accept) :
    takeVote f v s = closeAndRecheck .refused f.sender (.refusal v.verdict) s := by
  unfold takeVote; dsimp only
  rw [if_pos ⟨ho, he⟩, if_pos ((namesSlot_iff ..).2 hn), if_neg hr]

end

section
variable (hn : ¬(s.change.slot.proposer = v.proposer ∧ s.change.slot.sequence = some v.sequence))
include hn

/-- A vote on another identity is a conflict at the proposer, and nothing elsewhere (R58). -/
theorem takeVote_other :
    takeVote f v s = if s.change.slot.remote then s else closeAndRecheck .conflict f.sender .noReason s := by
  unfold takeVote; dsimp only
  rw [if_pos ⟨ho, he⟩, if_neg (mt (namesSlot_iff ..).1 hn)]

end
end

/-- The tally after one more accept (R56). -/
theorem tallyComplete_adjoin (c : Slot) (x : StationNo) :
    tallyComplete { c with accepts := adjoin x c.accepts } = true ↔
      ∀ k, member k c.electorate = true → k ≠ c.proposer → member k c.accepts = true ∨ k = x := by
  rw [tallyComplete_iff]; simp

/-- Settles O47: what a vote does on an OPEN slot, case by case, and the frame that brings one. -/
theorem voteCountsRefusesOrConflicts : Obligations.VoteCountsRefusesOrConflicts := by
  refine ⟨fun f v s => ?_, fun f v s hp hv hq hpart => ?_⟩
  · refine ⟨takeVote_outside, fun ho he hn ha hp => ?_, fun ho he hn hr => ?_, fun ho he hn hl => ?_, fun ho he hn hr => ?_⟩
    · have tally := tallyComplete_adjoin s.change.slot f.sender
      have state := judgeTally_opened (c := { s.change.slot with accepts := adjoin f.sender s.change.slot.accepts }) ho
      rw [takeVote_accept ho he hn ha hp, setSlot_host, setSlot_change]
      refine ⟨rfl, judgeTally_eq _, ?_⟩
      rw [state, ← tally]
      split <;> simp_all
    · exact closes_of_closeAndRecheck (takeVote_refusal ho he hn hr)
    · exact closes_of_closeAndRecheck ((takeVote_other ho he hn).trans (if_neg (by simp [hl])))
    · exact (takeVote_other ho he hn).trans (if_pos hr)
  · rw [exec_quietFrame hq hp hv, takeContent_vote (s := { heard f s with change := s.change }) hq.group hq.inGroup hpart]
    exact congrArg (fun u => Host.Outcome.next (takeVote f v u)) hq.collects

end Sys2Proof.Machine
end

section
/-! Notices at the slot (O48), the automatic DROP (O49), and the window end that brings either. -/

namespace Sys2Proof.Machine

/-! ## The re-check (R68, R70) -/

theorem dropDue_iff (s : State) :
    dropDue s = true ↔ s.station = .running ∧ (rowOf s.tables .peerLoss).action = .respace ∧
      s.change.slot.state = .vacant ∧ s.roster.lost ≠ 0 := by
  simp [dropDue, and_assoc]

theorem recheck_due {s : State} (h : s.station = .running ∧ (rowOf s.tables .peerLoss).action = .respace ∧
    s.change.slot.state = .vacant ∧ s.roster.lost ≠ 0) : recheck s = setSlot (dropProposal s) s :=
  if_pos ((dropDue_iff s).2 h)

theorem recheck_idle {s : State} (h : ¬(s.station = .running ∧ (rowOf s.tables .peerLoss).action = .respace ∧
    s.change.slot.state = .vacant ∧ s.roster.lost ≠ 0)) : recheck s = s :=
  if_neg fun q => h ((dropDue_iff s).1 q)

/-- The new set of the automatic DROP: the view without its lost members (R68). -/
theorem member_dropProposal (s : State) (k : StationNo) :
    member k (dropProposal s).newSet = true ↔ member k s.change.view = true ∧ member k s.roster.lost = false := by
  show member k (without s.change.view s.roster.lost) = true ↔ _
  simp

/-- Its electorate: the station itself and the peers in standing of the new set (R68). -/
theorem electorate_dropProposal (s : State) (k : StationNo) :
    member k (dropProposal s).electorate = true ↔
      member k (dropProposal s).newSet = true ∧ (k = s.number ∨ inStanding s k = true) := mem_electorateOf ..

/-! ## A notice (R59, R60) -/

section
variable {s : State} {x : StationNo} {why : NoticeCause} {loss : Bool}

theorem takeNotice_agreed (h : s.change.slot.state = .agreed) : takeNotice x why loss s = s := by
  unfold takeNotice; dsimp only; rw [h]

/-- A PENDING automatic DROP is withdrawn in silence, and the re-check follows (R60). -/
theorem takeNotice_automatic (h : s.change.slot.state = .pending) (ha : s.change.slot.automatic = true) :
    takeNotice x why loss s = recheck (setSlot Slot.vacant s) := by
  unfold takeNotice; dsimp only; rw [h]; exact if_pos ⟨rfl, ha⟩

/-- Any other PENDING or OPEN change closes where the station is its remote proposer or another elector (R59). -/
theorem takeNotice_live
    (h : s.change.slot.state = .opened ∨ s.change.slot.state = .pending ∧ s.change.slot.automatic = false) :
    takeNotice x why loss s =
      if s.change.slot.remote = true ∧ s.change.slot.proposer = x then closeAndRecheck .proposerLost x (.notice why) s
      else if member x s.change.slot.electorate = true ∧ s.change.slot.proposer ≠ x then
        closeAndRecheck .memberLost x (.notice why) s
      else s := by
  unfold takeNotice; dsimp only
  rcases h with h | ⟨h, ha⟩ <;> rw [h]
  · exact if_neg fun q => nomatch q.1
  · exact if_neg fun q => by rw [ha] at q; exact absurd q.2 Bool.false_ne_true

end

/-! ## The window end at which a peer becomes ABSENT (R34, R37) -/

section
variable {k : StationNo} {s : State}

theorem entryOf_missed (k : StationNo) (s : State) :
    entryOf (missed k s) k = { entryOf s k with presence := .absent, misses := s.tables.link.missLimit } :=
  entryOf_setEntry ..

/-- On the link the last miss of a PRESENT entry posts PEER_ABSENT, and the entry is judged (R34). -/
theorem exec_lastMiss (hp : s.pins.rstn = true) (hl : onLink s = true) (hn : k ≠ s.number) (hk : k.val < stationCount s)
    (hx : s.link.rx ≠ .handedOver) (present : (entryOf s k).presence = .present)
    (hm : s.tables.link.missLimit ≤ (entryOf s k).misses + 1) :
    exec (.windowEnd k) s = .next (judgeEntry k (entryOf s k) (missed k s)) := by
  have miss : missFrame k (closeWindow k s) = missed k s := missFrame_absent present hm
  have before : entryOf (closeWindow k s) k = entryOf s k := rfl
  have onLink' : onLink (closeWindow k s) = true := hl
  rw [exec_windowEnd k hp, if_neg (not_offline_of_onLink hl), endWindow_peer (receiving_of_onLink hl) hn hk, if_neg hx]
  unfold takeMiss; dsimp only
  rw [miss, before, if_pos (by simp [onLink', isPresent, present, entryOf_missed])]

theorem present_of_inStanding (h : inStanding s k = true) : (entryOf s k).presence = .present := by
  simp only [inStanding, standing, isPresent, Bool.and_eq_true, beq_iff_eq] at h
  exact h.1.1

/-- In JOINED no loss reaches the Trip Unit, and the notice is all (R59, R133). -/
theorem deliverNotice_joined (x : StationNo) (why : NoticeCause) (loss : Bool) (hs : s.station = .joined) :
    deliverNotice x why loss s = takeNotice x why loss s := by
  unfold deliverNotice; dsimp only
  rw [if_neg (fun q => by rw [hs] at q; exact nomatch q.2.1), raiseCause_idle _ _ _ (by simp [actsOn, evaluated, hs]), ite_self]

/-- A peer in standing that has become ABSENT departs, whether the view has it or not (R37, R59). -/
theorem judgeEntry_missed (hs : s.station = .joined) (hi : inStanding s k = true) :
    ∃ loss, judgeEntry k (entryOf s k) (missed k s) = takeNotice k .absence loss (judgeLost k (missed k s)) := by
  have group : (missed k s).tables.link.group = s.tables.link.group := rfl
  have before : standing s.tables.link.group (entryOf s k) = true := hi
  have absent : entryOf (judgeLost k (missed k s)) k = _ := entryOf_missed k s
  refine ⟨member k (judgeLost k (missed k s)).roster.lost && !member k (missed k s).roster.lost, ?_⟩
  unfold judgeEntry; dsimp only
  rw [group, before, absent, if_pos (by simp [standing, isPresent]), deliverNotice_joined (s := judgeLost k (missed k s)) _ _ _ hs]
  rfl

end

/-- Settles O48: the cases of a notice, and the departure that a last miss brings to a JOINED station. -/
theorem noticeClosesTheChange : Obligations.NoticeClosesTheChange := by
  refine ⟨fun x why loss s => ⟨fun hl hp => ?_, fun hl hp he => ?_, fun hl hp he => ?_, takeNotice_agreed, fun hc ha => ?_⟩,
    fun k s hp hs hn hk hx hi hm => ?_⟩
  · exact closes_of_closeAndRecheck ((takeNotice_live hl).trans (if_pos hp))
  · exact closes_of_closeAndRecheck ((takeNotice_live hl).trans ((if_neg hp).trans (if_pos he)))
  · exact (takeNotice_live hl).trans ((if_neg hp).trans (if_neg he))
  · obtain ⟨u, hu⟩ : ∃ u, u = setSlot Slot.vacant s := ⟨_, rfl⟩
    dsimp only; rw [takeNotice_automatic hc ha, ← hu]
    refine ⟨by rw [(recheck_spec u).1, hu]; rfl, fun hd => ?_, fun ⟨hr, hrow, hlost⟩ => ?_⟩
    · rw [recheck_idle (fun ⟨a, b, _, d⟩ => hd (by rw [hu] at a b d; exact ⟨a, b, d⟩)), hu]; rfl
    · refine ⟨by rw [hu]; rfl, ?_⟩
      rw [recheck_due (by rw [hu]; exact ⟨hr, hrow, rfl, hlost⟩), hu]
      exact ⟨rfl, rfl, rfl, member_dropProposal (setSlot Slot.vacant s)⟩
  · have onlink : onLink s = true := (onLink_iff s).2 (.inl hs)
    obtain ⟨loss, e⟩ := judgeEntry_missed hs hi
    refine ⟨judgeLost k (missed k s), loss, ?_, hs, rfl, rfl, rfl, rfl⟩
    rw [exec_lastMiss hp onlink hn hk hx (present_of_inStanding hi) hm, e]

/-- Settles O49: the conditions and the fields of the automatic DROP, and the loss by absence that makes the re-check. -/
theorem automaticDropRemovesTheLost : Obligations.AutomaticDropRemovesTheLost := by
  refine ⟨fun s law => ⟨recheck_idle, fun due => ?_⟩, fun k s hp hs hn hk hx present hm hv hl hr hc => ?_⟩
  · dsimp only; rw [recheck_due due]
    have own : member s.number s.change.view = true := law.running.1 due.1
    have live : s.change.profile ≠ 0 := fun e => by
      have := set_eq_zero.1 (law.view.2 e) s.number
      rw [own] at this; exact nomatch this
    exact ⟨rfl, rfl, rfl, rfl, rfl, rfl, member_dropProposal s, (member_dropProposal s _).2 ⟨own, law.lost.2⟩, rfl, live,
      rfl, rfl, rfl, electorate_dropProposal s⟩
  · have lost := isLost_missed (s := s) hn hv
    have due : recheck (withLost k (missed k s)) = _ := recheck_due ⟨hs, hr, hc, fun e => by
      have := set_eq_zero.1 e k
      simp [withLost] at this⟩
    refine ⟨withLost k (missed k s), ?_, hs, rfl, rfl, congrArg (·.presence) (entryOf_missed k s), rfl, rfl, rfl⟩
    rw [exec_lastMiss hp ((onLink_iff s).2 (.inr (.inl hs))) hn hk hx present hm, judgeEntry_drops (s := missed k s) _ hs lost hl hr hc, due]

end Sys2Proof.Machine
end

section
/-! The view refresh of a JOINED station (O43). -/

namespace Sys2Proof.Machine

/-- PEER_LOSS is not evaluated in JOINED, so a judgement of the view changes the lost set alone (R39, R133). -/
theorem rejudgeView_joined (admitted : StationSet) {s : State} (hs : s.station = .joined) :
    rejudgeView admitted s = judgeView admitted s := by
  have idle : actsOn .peerLoss (judgeView admitted s) = false := by simp [actsOn, evaluated, hs]
  unfold rejudgeView; dsimp only; split
  · rfl
  · exact raiseCause_idle _ _ _ idle

theorem judgeView_none (s : State) :
    judgeView 0 s = { s with roster := { s.roster with lost := setOf (isLost s) } } := by
  have none : (fun k => isLost s k && !entering 0 s k) = isLost s := by
    funext k; simp [entering]
  unfold judgeView; rw [none]

/-- The pair that every frame of a collection advertises (R71). -/
theorem commonPair_eq_some {l : List (StationSet × ProfileNo)} {pair : StationSet × ProfileNo} (hn : l ≠ [])
    (h : ∀ q ∈ l, q = pair) : commonPair l = some pair := by
  cases l with
  | nil => exact absurd rfl hn
  | cons first rest =>
    obtain rfl := h first (by simp)
    refine if_pos ?_
    simp only [List.all_eq_true, beq_iff_eq]
    exact fun q hq => h q (by simp [hq])

theorem commonPair_eq_none {l : List (StationSet × ProfileNo)} (h : ∃ q ∈ l, ∃ q' ∈ l, q ≠ q') : commonPair l = none := by
  cases l with
  | nil => rfl
  | cons first rest =>
    refine if_neg fun all => ?_
    simp only [List.all_eq_true, beq_iff_eq] at all
    have same : ∀ q ∈ first :: rest, q = first := fun q hq => (List.mem_cons.1 hq).elim id (all q)
    obtain ⟨q, hq, q', hq', hne⟩ := h
    exact hne ((same q hq).trans (same q' hq').symm)

/-- The state after a discordant refresh (R71, R72). -/
theorem refreshDiscord_eq (s : State) :
    refreshDiscord s = { s with
      change := { s.change with viewDiscord := true }
      host := { s.host with
        reports := if s.change.viewDiscord then s.host.reports else arrive s.host.reports (reportOf
          (.viewDiscord s.change.collection.length (s.change.collection.any fun q => member s.number q.1)) s.number s) } } := by
  unfold refreshDiscord
  by_cases h : s.change.viewDiscord = true
  · have same : ({ s.change with viewDiscord := true } : ChangeUnit) = s.change := by rw [← h]
    rw [if_pos h, if_pos h, same]
  · rw [if_neg h, if_neg h]; rfl

section
variable {s : State}

theorem refreshView_empty (h : s.change.collection = []) : refreshView s = takePair (0, 0) s :=
  if_pos (by rw [h]; rfl)

theorem refreshView_pair {pair : StationSet × ProfileNo} (hn : s.change.collection ≠ [])
    (h : ∀ q ∈ s.change.collection, q = pair) :
    refreshView s = if member s.number pair.1 then refreshDiscord s else takePair pair s := by
  unfold refreshView
  rw [if_neg (by simpa using hn), commonPair_eq_some hn h]

theorem refreshView_discord (h : ∃ q ∈ s.change.collection, ∃ q' ∈ s.change.collection, q ≠ q') :
    refreshView s = refreshDiscord s := by
  obtain ⟨q, hq, -⟩ := id h
  unfold refreshView
  rw [if_neg (by simpa using List.ne_nil_of_mem hq), commonPair_eq_none h]

/-- The state after a JOINED station has taken a pair (R71, R39). -/
theorem takePair_joined (pair : StationSet × ProfileNo) (hs : s.station = .joined) :
    takePair pair s = { s with
      change := { s.change with view := pair.1, profile := pair.2, viewDiscord := false }
      roster := { s.roster with lost := setOf (isLost { s with
        change := { s.change with view := pair.1, profile := pair.2, viewDiscord := false } }) } } :=
  (rejudgeView_joined 0 (s := { s with change := { s.change with view := pair.1, profile := pair.2, viewDiscord := false } })
    hs).trans (judgeView_none _)

theorem refreshView_keeps (hs : s.station = .joined) :
    (refreshView s).station = .joined ∧ (refreshView s).change.slot = s.change.slot := by
  have taken (pair : StationSet × ProfileNo) :
      (takePair pair s).station = .joined ∧ (takePair pair s).change.slot = s.change.slot := by
    rw [takePair_joined pair hs]; exact ⟨hs, rfl⟩
  have discord : (refreshDiscord s).station = .joined ∧ (refreshDiscord s).change.slot = s.change.slot := by
    rw [refreshDiscord_eq]; exact ⟨hs, rfl⟩
  unfold refreshView
  repeat' split
  · exact taken _
  · exact discord
  · exact discord
  · exact taken _

/-- The mark event of a JOINED station with its slot NONE is the refresh (R61, R71). -/
theorem changeMark_refresh (hs : s.station = .joined) (hc : s.change.slot.state = .vacant) :
    changeMark s = emptied (refreshView s) := by
  have idle : deadline s = s :=
    deadline_idle (fun q => by rw [hc] at q; exact nomatch q.1) (fun q => by have := hc.symm.trans q.1; exact nomatch this)
  unfold changeMark; dsimp only
  rw [idle, ite_self, hc, if_pos ⟨hs, rfl⟩]; rfl

end

/-- Settles O43: the refresh of each collection, and the mark of a station with a stopped carrier that brings it. -/
theorem joinedViewIsRefreshed : Obligations.JoinedViewIsRefreshed := by
  refine ⟨fun s hs hc => ?_, fun start s hp hs hstop hc ht hsh => ?_⟩
  · have taken (pair : StationSet × ProfileNo) := takePair_joined pair hs
    obtain ⟨joined, slot⟩ := refreshView_keeps hs
    dsimp only; rw [changeMark_refresh hs hc]
    refine ⟨joined, rfl, slot, fun he => ?_, fun pair hn h hm => ?_, fun h => ?_⟩
    · rw [refreshView_empty he, taken]; exact ⟨rfl, rfl, rfl⟩
    · rw [refreshView_pair hn h, hm, taken]; exact ⟨rfl, rfl, rfl, rfl, rfl⟩
    · have discord : refreshView s = refreshDiscord s := by
        rcases h with h | ⟨pair, hmem, h, hm⟩
        · exact refreshView_discord h
        · rw [refreshView_pair (List.ne_nil_of_mem hmem) h, if_pos hm]
      rw [discord, refreshDiscord_eq]
      exact ⟨rfl, rfl, rfl, rfl⟩
  · have onlink : onLink s = true := (onLink_iff s).2 (.inl hs)
    obtain ⟨c, l, -, e, slips, stays⟩ := numbered_eq start s
    have slot : c = s.change.slot := by
      by_cases h : Slips s
      · exact (slips h).1 hc
      · exact (stays h).1
    have stopped : (agreeNumber (markRestart (watched start s))).carrier.running = false :=
      (congrArg (·.carrier.running) e).trans hstop
    refine ⟨numbered start s, ?_, (congrArg (·.station) e).trans hs, ?_, ?_, congrArg (·.number) e, congrArg (·.tables) e,
      fun htally => ?_⟩
    · rw [exec_acceptedMark hp onlink ht hsh, markEvent_stopped stopped]; rfl
    · rw [e, slot]
    · rw [e]
    · have a : agreeNumber (markRestart (watched start s)) = _ :=
        agreeNumber_agrees (agreement_agrees fun v hv => by
          rw [show (markRestart (watched start s)).link.tally = [] from htally] at hv; cases hv)
      exact ⟨congrArg (·.host) a, congrArg (·.link.cycle) a⟩

end Sys2Proof.Machine
end

section
/-! SUPPORT. The immediate load of an application and the legs it leaves, value by value (R108, R111, R112, R115, R124 to R127). -/

namespace Sys2Proof.Machine

/-! ## Loads from the queue and from the pattern (R124, R125, R126) -/

/-- The queue without the stale records at its head (R124). -/
def fresh (live : ProfileNo) (queue : List Setpoint) : List Setpoint := queue.dropWhile fun r => r.tag != live

theorem fresh_eq_nil {live : ProfileNo} {queue : List Setpoint} : fresh live queue = [] ↔ ∀ x ∈ queue, x.tag ≠ live := by
  simp [fresh, List.dropWhile_eq_nil_iff]

theorem discardStale_setpoint (s : State) :
    (discardStale s).setpoint = { s.setpoint with queue := fresh s.change.profile s.setpoint.queue } := by
  have parts := List.takeWhile_append_dropWhile (p := fun r : Setpoint => r.tag != s.change.profile) (l := s.setpoint.queue)
  unfold discardStale fresh; dsimp only; split
  · rename_i none
    rw [none, List.nil_append] at parts
    rw [parts]
  · rfl

theorem starvedLoad_setpoint (s : State) :
    (starvedLoad s).1.setpoint =
      { s.setpoint with starveRun := true, starve := starveNext s.tables.link.starveLimit s.setpoint.starve } := by
  unfold starvedLoad; dsimp only; split <;> rfl

section
variable {s : State}

/-- With no record of the live profile left the load is starved (R124, R125). -/
theorem queueLoad_starves (h : fresh s.change.profile s.setpoint.queue = []) :
    (queueLoad s).1.setpoint = { s.setpoint with
      queue := [], starveRun := true, starve := starveNext s.tables.link.starveLimit s.setpoint.starve } ∧
    (queueLoad s).2 = starveRaises s.tables.link.starveLimit s.setpoint.starve := by
  obtain ⟨l, -, e⟩ := discardStale_eq s
  have setpoint := discardStale_setpoint s
  have tables : (discardStale s).tables = s.tables := by rw [e]
  rw [h] at setpoint
  unfold queueLoad; dsimp only
  rw [setpoint]; dsimp only
  refine ⟨?_, ?_⟩
  · rw [starvedLoad_setpoint, setpoint, tables]
  · show starveRaises (discardStale s).tables.link.starveLimit (discardStale s).setpoint.starve = _
    rw [setpoint, tables]

/-- Otherwise the first such record becomes live (R124). -/
theorem queueLoad_takes {r : Setpoint} {rest : List Setpoint} (h : fresh s.change.profile s.setpoint.queue = r :: rest) :
    (queueLoad s).1.setpoint = { s.setpoint with queue := rest, live := r.legs, starve := 0, starveRun := false } ∧
    (queueLoad s).2 = false := by
  have setpoint := discardStale_setpoint s
  rw [h] at setpoint
  unfold queueLoad; dsimp only
  rw [setpoint]; exact ⟨rfl, rfl⟩

theorem load_queue (h : (liveProfile s).source = .queue) : load s = queueLoad s := by unfold load; rw [h]

theorem load_pattern (h : (liveProfile s).source = .pattern) : load s = (patternLoad s, false) := by unfold load; rw [h]

/-- The first load of a pattern makes its first entry live (R126). -/
theorem patternLoad_first (he : s.setpoint.ended = false) (hp : s.setpoint.position = 0)
    (hl : 1 ≤ (liveProfile s).patternLength) (hs : (liveProfile s).patternStart < 64) :
    (patternLoad s).setpoint = { s.setpoint with
      live := s.tables.pattern[(liveProfile s).patternStart]
      position := if (liveProfile s).patternRepeat = true ∧ (liveProfile s).patternLength = 1 then 0 else 1 } := by
  have entry : s.tables.pattern.toList.getD (liveProfile s).patternStart allOff =
      s.tables.pattern[(liveProfile s).patternStart] := by simp [List.getD, hs]
  unfold patternLoad patternNext; dsimp only
  rw [he, hp, if_neg Bool.false_ne_true, if_pos (by omega)]
  simp only [Nat.add_zero, Nat.zero_add, entry, eq_comm (a := 1)]

/-- A load leaves no record in the queue that was not there (R124). -/
theorem load_queue_subset (s : State) : (load s).1.setpoint.queue ⊆ s.setpoint.queue := by
  have sub : fresh s.change.profile s.setpoint.queue ⊆ s.setpoint.queue := (List.dropWhile_sublist _).subset
  unfold load; split
  · cases h : fresh s.change.profile s.setpoint.queue with
    | nil => rw [(queueLoad_starves h).1]; exact List.nil_subset _
    | cons r rest =>
      rw [(queueLoad_takes h).1]
      exact fun x hx => sub (by rw [h]; exact List.mem_cons_of_mem r hx)
  · unfold patternLoad; dsimp only; repeat' split
    all_goals exact fun _ h => h

/-- Nor does a re-phase (R101). -/
theorem markRephase_queue_subset (s : State) : (markRephase s).1.setpoint.queue ⊆ s.setpoint.queue := by
  by_cases h : s.carrier.running = true ∧ s.carrier.setThisTick = false
  · obtain ⟨still, loads⟩ := markRephase_spec s h.1 h.2
    cases hl : rephaseLoads s.carrier with
    | false => rw [still hl, advanceTo_eq]; exact fun _ h => h
    | true =>
      obtain ⟨first, n, -, e⟩ := loads hl
      obtain ⟨g, eg, -⟩ := loadAt_spec s.carrier.offset first { noteRerun s with free := n }
      rw [e, eg]
      exact load_queue_subset { noteRerun s with free := n }
  · unfold markRephase; dsimp only; rw [if_neg h]; exact fun _ h => h

end

/-! ## The legs of an application (R108, R111, R112, R115) -/

theorem gateOn_turnOn {l : LegState} {side : Side} (h : l.pending = some side) (other : Side) :
    gateOn (turnOn l) other = (gateOn l other || decide (other = side)) := by
  unfold turnOn; rw [h]
  cases side <;> cases other <;> simp [gateOn]

theorem pending_turnOn (l : LegState) : (turnOn l).pending = none := by
  unfold turnOn; split
  · assumption
  · rfl
  · rfl

theorem ripen_judgeLeg_setting (d : Nat) (wanted : Option Side) (l : LegState) :
    (ripen d (judgeLeg wanted l)).mode = l.mode ∧ (ripen d (judgeLeg wanted l)).compare = l.compare := by
  rw [← mode_judgeLeg wanted l, ← compare_judgeLeg wanted l]
  unfold ripen turnOn; repeat' split
  all_goals exact ⟨rfl, rfl⟩

/-- A leg under a new dead time, from the leg before: what is on stays on where it is demanded, a wait that is long enough ends, and
any other demanded gate waits (R111, R112, R115). -/
def Ripened (d : Nat) (wanted : Option Side) (b l : LegState) : Prop :=
  ∀ side,
    (gateOn l side = true ↔ wanted = some side ∧ (gateOn b side = true ∨ b.pending = some side ∧ d ≤ b.count)) ∧
    (l.pending = some side ↔ wanted = some side ∧ gateOn l side = false) ∧
    (l.pending = some side → l.count = if b.pending = some side then b.count else 0)

/-- A gate that is demanded and off waits after a judgement, with the count of the wait that it had (R112). -/
theorem waits_judgeLeg {wanted : Option Side} {b : LegState} {side : Side} (hw : wanted = some side)
    (off : gateOn b side = false) : (judgeLeg wanted b).pending = some side ∧
      (judgeLeg wanted b).count = if b.pending = some side then b.count else 0 := by
  refine ⟨(pending_judgeLeg wanted b side).2 ⟨hw, off⟩, ?_⟩
  rw [count_judgeLeg, hw]; simp [off]

/-- A ripening changes nothing of a gate that does not wait (R115). -/
theorem ripen_other {d : Nat} {l : LegState} {side : Side} (h : l.pending ≠ some side) :
    gateOn (ripen d l) side = gateOn l side ∧ (ripen d l).pending ≠ some side := by
  unfold ripen; split
  · rename_i hr
    obtain ⟨other, ho⟩ := Option.ne_none_iff_exists'.1 hr.1
    rw [gateOn_turnOn ho, pending_turnOn]
    have : side ≠ other := fun e => h (e ▸ ho)
    simp [this]
  · exact ⟨rfl, h⟩

theorem ripened_judgeLeg {d : Nat} (hd : 1 ≤ d) (wanted : Option Side) (b : LegState) :
    Ripened d wanted b (ripen d (judgeLeg wanted b)) := by
  intro side
  by_cases h : wanted = some side ∧ gateOn b side = false
  · obtain ⟨hw, off⟩ := h
    obtain ⟨waits, count⟩ := waits_judgeLeg hw off
    unfold ripen
    by_cases ripe : d ≤ (judgeLeg wanted b).count
    · have held : b.pending = some side := by
        by_contra h
        rw [if_neg h] at count; omega
      have long : d ≤ b.count := by rw [if_pos held] at count; exact count ▸ ripe
      rw [if_pos ⟨by rw [waits]; exact Option.some_ne_none _, ripe⟩, gateOn_turnOn waits, pending_turnOn]
      simp [hw, held, long]
    · have short : ¬(b.pending = some side ∧ d ≤ b.count) := fun q => by
        rw [if_pos q.1] at count; exact ripe (count ▸ q.2)
      rw [if_neg fun q => ripe q.2, gateOn_judgeLeg, waits, count]
      simp [hw, off, short]
  · obtain ⟨same, idle⟩ := ripen_other (d := d) (mt (pending_judgeLeg wanted b side).1 h)
    rw [same, gateOn_judgeLeg]
    simp only [idle, false_iff, false_implies, and_true, Bool.and_eq_true, decide_eq_true_eq]
    by_cases hw : wanted = some side
    · have on : gateOn b side = true := Bool.eq_true_of_not_eq_false fun off => h ⟨hw, off⟩
      simp [hw, on]
    · simp [hw]

/-- The legs before an application take what the profile enables of the live setpoint (R108). -/
theorem get_takeLive {s : State} (hs : s.station = .running) (leg : Leg) :
    (takeLive s).gate.legs.get leg =
      takeSetting ((liveProfile s).enables.get leg) (s.setpoint.live.get leg) (s.gate.legs.get leg) := by
  unfold takeLive; rw [if_pos hs]; cases leg <;> rfl

/-- What an application makes of one leg (R108, R115). -/
theorem get_gateApply {s : State} (hs : s.station = .running) (leg : Leg) :
    let taken := takeSetting ((liveProfile s).enables.get leg) (s.setpoint.live.get leg) (s.gate.legs.get leg)
    (gateApply s).gate.legs.get leg =
      ripen (liveProfile s).deadTime (judgeLeg (demand taken.mode taken.compare (carrierNow s)) taken) := by
  obtain ⟨u, hu⟩ : ∃ u : State, u = { s with gate := { s.gate with deadTime := (liveProfile s).deadTime } } := ⟨_, rfl⟩
  have taken := get_takeLive (s := u) (by rw [hu]; exact hs) leg
  have live := takeLive_eq u
  have value : carrierNow (takeLive u) = carrierNow s := by rw [live, hu]; rfl
  have station : (takeLive u).station = .running := by rw [live, hu]; exact hs
  intro own
  have own_eq : (takeLive u).gate.legs.get leg = own := taken.trans (by rw [hu]; rfl)
  show ((gateLoad _).gate.legs.map (ripen _)).get leg = _
  rw [← hu, get_map]
  unfold gateLoad
  rw [judgeGates_running station, get_map, value, own_eq]

/-- The mode and compare value that a profile gives a leg (R108). -/
theorem takeSetting_setting (enabled : Bool) (x : LegSetting) (l : LegState) :
    (takeSetting enabled x l).mode = (if enabled then x.mode else .off) ∧
      (takeSetting enabled x l).compare = (if enabled then x.compare else 0) := by
  cases enabled <;> exact ⟨rfl, rfl⟩

theorem ripened_takeSetting {d : Nat} {wanted : Option Side} {enabled : Bool} {x : LegSetting} {b l : LegState} :
    Ripened d wanted (takeSetting enabled x b) l ↔ Ripened d wanted b l := by
  cases enabled <;> exact Iff.rfl

/-- The legs of an application, against those before it (R108, R111, R112, R115). -/
theorem gateApply_legs {s : State} (hs : s.station = .running) (hd : 1 ≤ (liveProfile s).deadTime) (leg : Leg) :
    let l := (gateApply s).gate.legs.get leg
    l.mode = (if (liveProfile s).enables.get leg then (s.setpoint.live.get leg).mode else .off) ∧
    l.compare = (if (liveProfile s).enables.get leg then (s.setpoint.live.get leg).compare else 0) ∧
    Ripened (liveProfile s).deadTime (demand l.mode l.compare (carrierNow s)) (s.gate.legs.get leg) l := by
  have e := get_gateApply hs leg
  have setting := takeSetting_setting ((liveProfile s).enables.get leg) (s.setpoint.live.get leg) (s.gate.legs.get leg)
  dsimp only at e ⊢
  rw [e, (ripen_judgeLeg_setting _ _ _).1, (ripen_judgeLeg_setting _ _ _).2]
  exact ⟨setting.1, setting.2, ripened_takeSetting.1 (ripened_judgeLeg hd _ _)⟩

end Sys2Proof.Machine
end

section
/-! SUPPORT. What an application makes of the station in its two ends (R64, R98, R115, R127), and its outcome once the losses under the
new view and the STARVED cause are taken (R39, R65, R136). -/

namespace Sys2Proof.Machine

/-! ## The claim at a station in the new set (R64, R98, R115, R127) -/

/-- The immediate load of a change finds no record of its profile, and its first starved load reaches the limit (R125). -/
def LoadStarves (c : Slot) (s : State) : Prop :=
  (profileAt s.tables c.newProfile).source = .queue ∧ s.tables.link.starveLimit = 1 ∧
    ∀ x ∈ s.setpoint.queue, x.tag ≠ c.newProfile

/-- State `v` is what the claim of a change leaves of state `s` where the station is in the new set. -/
structure Claimed (c : Slot) (s v : State) : Prop where
  rest : v = { s with
    station := .running
    change := { s.change with view := c.newSet, profile := c.newProfile }
    carrier := appliedCarrier s c, setpoint := v.setpoint, gate := v.gate
    host := { s.host with reports := v.host.reports } }
  reports : ∃ l, l.length ≤ 2 ∧ v.host.reports = postAll l s.host.reports
  deadTime : v.gate.deadTime = (profileAt s.tables c.newProfile).deadTime
  starves : (profileAt s.tables c.newProfile).source = .queue → fresh c.newProfile s.setpoint.queue = [] →
    v.setpoint = { SetpointUnit.empty with starveRun := true, starve := if 1 ≤ s.tables.link.starveLimit then 1 else 0 }
  takes : (profileAt s.tables c.newProfile).source = .queue → ∀ r rest, fresh c.newProfile s.setpoint.queue = r :: rest →
    v.setpoint = { SetpointUnit.empty with queue := rest, live := r.legs }
  pattern : (profileAt s.tables c.newProfile).source = .pattern →
    ∀ h : (profileAt s.tables c.newProfile).patternStart < 64, 1 ≤ (profileAt s.tables c.newProfile).patternLength →
    v.setpoint = { SetpointUnit.empty with
      queue := s.setpoint.queue, live := s.tables.pattern[(profileAt s.tables c.newProfile).patternStart]
      position := if (profileAt s.tables c.newProfile).patternRepeat = true ∧
        (profileAt s.tables c.newProfile).patternLength = 1 then 0 else 1 }
  legs : 1 ≤ (profileAt s.tables c.newProfile).deadTime → ∀ leg : Leg,
    let l := v.gate.legs.get leg
    let enabled := (profileAt s.tables c.newProfile).enables.get leg
    l.mode = (if enabled then (v.setpoint.live.get leg).mode else .off) ∧
    l.compare = (if enabled then (v.setpoint.live.get leg).compare else 0) ∧
    Ripened (profileAt s.tables c.newProfile).deadTime (demand l.mode l.compare (carrierNow v)) (s.gate.legs.get leg) l

/-- The station with the carrier started and the setpoints reset, before the immediate load. -/
def claiming (c : Slot) (s : State) : State :=
  setpointReset (carrierStart { s with
    station := .running, change := { s.change with view := c.newSet, profile := c.newProfile } })

theorem applyClaim_applier {c : Slot} {s : State} (hm : member s.number c.newSet = true) :
    applyClaim c s = (gateApply (load (claiming c s)).1, (load (claiming c s)).2) := by
  unfold applyClaim stateAfter; dsimp only; rw [hm]; rfl

/-- A first starved load raises STARVED at a limit of 1 alone (R125). -/
theorem starveRaises_first (limit : Nat) : starveRaises limit 0 = true ↔ limit = 1 := by
  simp only [starveRaises, decide_eq_true_eq]; omega

theorem starveNext_first (limit : Nat) : starveNext limit 0 = if 1 ≤ limit then 1 else 0 := by
  unfold starveNext; congr 1; simp; omega

section
variable {c : Slot} {s : State}

/-- The immediate load from a queue that holds no record of the new profile (R125, R127). -/
theorem load_claiming_starves (hq : (profileAt s.tables c.newProfile).source = .queue)
    (hf : fresh c.newProfile s.setpoint.queue = []) :
    (load (claiming c s)).1.setpoint =
        { SetpointUnit.empty with starveRun := true, starve := if 1 ≤ s.tables.link.starveLimit then 1 else 0 } ∧
      ((load (claiming c s)).2 = true ↔ s.tables.link.starveLimit = 1) := by
  obtain ⟨setpoint, raised⟩ := queueLoad_starves (s := claiming c s) hf
  rw [load_queue (s := claiming c s) hq, setpoint, raised, ← starveNext_first]
  exact ⟨rfl, starveRaises_first _⟩

/-- The immediate load takes the first record of the new profile (R124, R127). -/
theorem load_claiming_takes (hq : (profileAt s.tables c.newProfile).source = .queue) {r : Setpoint} {rest : List Setpoint}
    (hf : fresh c.newProfile s.setpoint.queue = r :: rest) :
    (load (claiming c s)).1.setpoint = { SetpointUnit.empty with queue := rest, live := r.legs } ∧
      (load (claiming c s)).2 = false := by
  obtain ⟨setpoint, raised⟩ := queueLoad_takes (s := claiming c s) hf
  rw [load_queue (s := claiming c s) hq, setpoint, raised]
  exact ⟨rfl, rfl⟩

/-- The immediate load raises STARVED exactly where it starves at a limit of 1 (R125). -/
theorem load_claiming_raises : (load (claiming c s)).2 = true ↔ LoadStarves c s := by
  unfold LoadStarves
  cases hq : (profileAt s.tables c.newProfile).source with
  | pattern => rw [load_pattern (s := claiming c s) hq]; simp
  | queue =>
    cases hf : fresh c.newProfile s.setpoint.queue with
    | nil =>
      simp only [(load_claiming_starves hq hf).2, true_and]
      exact ⟨fun h => ⟨h, fresh_eq_nil.1 hf⟩, And.left⟩
    | cons r rest =>
      have stays : ¬∀ x ∈ s.setpoint.queue, x.tag ≠ c.newProfile := fun h => by
        rw [fresh_eq_nil.2 h] at hf; cases hf
      simp only [(load_claiming_takes hq hf).2, Bool.false_eq_true, false_iff]
      exact fun h => stays h.2.2

end

section
variable {c : Slot} {s : State} (hm : member s.number c.newSet = true)
include hm

theorem applyClaim_raises : (applyClaim c s).2 = true ↔ LoadStarves c s := by
  rw [applyClaim_applier hm]; exact load_claiming_raises

/-- The setpoints of the claim are those of the immediate load. -/
theorem applyClaim_setpoint : (applyClaim c s).1.setpoint = (load (claiming c s)).1.setpoint := by
  rw [applyClaim_applier hm]; dsimp only; rw [gateApply_eq]

/-- The legs of the claim are those of the Gate Stage after the immediate load (R115). -/
theorem applyClaim_legs (hd : 1 ≤ (profileAt s.tables c.newProfile).deadTime) (leg : Leg) :
    let l := (applyClaim c s).1.gate.legs.get leg
    let enabled := (profileAt s.tables c.newProfile).enables.get leg
    l.mode = (if enabled then ((applyClaim c s).1.setpoint.live.get leg).mode else .off) ∧
    l.compare = (if enabled then ((applyClaim c s).1.setpoint.live.get leg).compare else 0) ∧
    Ripened (profileAt s.tables c.newProfile).deadTime (demand l.mode l.compare (carrierNow (applyClaim c s).1))
      (s.gate.legs.get leg) l := by
  obtain ⟨y, hy⟩ : ∃ y, y = (load (claiming c s)).1 := ⟨_, rfl⟩
  obtain ⟨m, -, loaded⟩ := load_eq (claiming c s)
  rw [← hy] at loaded
  have running : y.station = .running := by rw [loaded]; rfl
  have live : liveProfile y = profileAt s.tables c.newProfile := by unfold liveProfile; rw [loaded]; rfl
  have gate : y.gate = s.gate := by rw [loaded]; rfl
  have legs := gateApply_legs running (by rw [live]; exact hd) leg
  have frame := gateApply_eq y
  have value : carrierNow (gateApply y) = carrierNow y := by rw [frame]; rfl
  have setpoint : (gateApply y).setpoint = y.setpoint := by rw [frame]
  rw [live, gate] at legs
  rw [applyClaim_applier hm, ← hy]; dsimp only
  rw [value, setpoint]; exact legs

theorem claimed_applyClaim : Claimed c s (applyClaim c s).1 := by
  obtain ⟨l, hl, sp, g, e, dead⟩ := applyClaim_running c s hm
  have setpoint := applyClaim_setpoint hm
  refine ⟨by rw [e], ⟨l, hl, by rw [e]⟩, by rw [e]; exact dead, fun hq hf => ?_, fun hq r rest hf => ?_, fun hs h hp => ?_,
    applyClaim_legs hm⟩
  · exact setpoint.trans (load_claiming_starves hq hf).1
  · exact setpoint.trans (load_claiming_takes hq hf).1
  · rw [setpoint, load_pattern (s := claiming c s) hs]
    exact patternLoad_first (s := claiming c s) rfl rfl hp h

end

/-! ## What a trip at the mark leaves (R136, R138) -/

/-- State `t` is what a trip entry of this mark leaves, whatever of it came before or after. -/
structure Fallen (cause : Cause) (s t : State) : Prop where
  station : t.station = .tripped
  first : t.trip.first = some cause
  outputs : t.gate = Gate.off ∧ t.carrier = Carrier.stopped ∧ t.setpoint = SetpointUnit.empty
  change : t.change.slot = Slot.vacant ∧ t.change.view = 0 ∧ t.change.profile = 0
  entries : t.roster.entries = s.roster.entries

theorem fallen_tripEntry (cause : Cause) (drive : Bool) (x : StationNo) (kind : Option MismatchKind) (s : State) :
    Fallen cause s (tripEntry cause drive x kind s) := by
  rw [tripEntry_eq]
  exact ⟨rfl, rfl, ⟨rfl, rfl, rfl⟩, ⟨rfl, rfl, rfl⟩, rfl⟩

section
variable {cause : Cause} {s t : State} (h : Fallen cause s t)
include h

theorem Fallen.emptied : Fallen cause s (emptied t) := ⟨h.station, h.first, h.outputs, h.change, h.entries⟩

theorem Fallen.of_entries {r : State} (he : s.roster.entries = r.roster.entries) : Fallen cause r t :=
  { h with entries := h.entries.trans he }

/-- A TRIPPED station builds no automatic DROP (R68). -/
theorem Fallen.recheck : Fallen cause s (recheck t) := by
  rw [recheck_idle fun q => by rw [h.station] at q; exact nomatch q.1]; exact h

/-- A STARVED that comes to a TRIPPED station is a second cause at most (R138). -/
theorem Fallen.starved : Fallen cause s (takeOwnCause .starved t) := by
  have entries := (steady_takeOwnCause .starved t).entries.trans h.entries
  unfold takeOwnCause at entries ⊢
  rcases takeCause_cases .starved t.number none t with e | e | ⟨hs, -⟩ | ⟨-, e⟩
  · rw [e]; exact h
  · rw [e]; exact ⟨h.station, h.first, h.outputs, h.change, h.entries⟩
  · rw [h.station] at hs; rcases hs with hs | hs <;> cases hs
  · rw [e]
    cases hc : hasCause .starved t.trip.causes with
    | true => unfold addCause; rw [if_pos hc]; exact h
    | false =>
      rw [addCause_eq _ _ _ _ hc (.inr fun _ => nofun)]
      exact ⟨h.station, h.first, h.outputs, h.change, h.entries⟩

end

/-! ## The end of an application (R39, R64, R65, R68) -/

/-- The member that an application makes newly lost (R39; log entry 34). -/
def NewlyLost (admitted : StationSet) (v : State) (k : StationNo) : Prop :=
  isLost v k = true ∧ entering admitted v k = false ∧ member k v.roster.lost = false

/-- The judgement of the view raises PEER_LOSS for a newly lost member, and for none where there is none (R39). -/
theorem rejudgeView_cases (admitted : StationSet) {s : State} (hp : s.pending = []) :
    (∀ k, ¬NewlyLost admitted s k) ∧ rejudgeView admitted s = judgeView admitted s ∨
      ∃ k, NewlyLost admitted s k ∧ rejudgeView admitted s = takeCause .peerLoss k none (judgeView admitted s) := by
  have newly (k : StationNo) : k ∈ members (newlyLost s.roster.lost (judgeView admitted s).roster.lost) ↔
      NewlyLost admitted s k := by
    rw [mem_members, newlyLost, member_without, Bool.and_eq_true, member_judgeView, Bool.not_eq_true', and_assoc]; rfl
  unfold rejudgeView; dsimp only; split
  · rename_i none
    exact .inl ⟨fun k h => List.not_mem_nil (none ▸ (newly k).2 h), rfl⟩
  · rename_i k rest some
    exact .inr ⟨k, (newly k).1 (some ▸ List.mem_cons_self), raiseCause_alone _ _ _ hp⟩

/-- The report of an application (R66). -/
def appliedReport (c : Slot) (v : State) : Report :=
  reportOf (.changeClosed .applied c.sequence c.remote c.automatic .noReason) c.proposer v

/-- State `t` is state `v` of a claim with its change closed, its losses judged and nothing tripped. -/
structure AppliedTo (c : Slot) (admitted : StationSet) (v t : State) : Prop where
  rest : t = { v with
    change := { v.change with slot := t.change.slot, collection := t.change.collection }
    roster := { v.roster with lost := t.roster.lost }
    host := { v.host with reports := t.host.reports } }
  slot : t.change.slot = Slot.vacant ∨ t.change.slot.automatic = true ∧ t.change.slot.state = .pending
  lost : ∀ k, member k t.roster.lost = true ↔ isLost v k = true ∧ entering admitted v k = false
  reports : ∃ later, t.host.reports = postAll (appliedReport c v :: later) v.host.reports

/-- The losses under the new view trip the station. -/
def Bereaves (admitted : StationSet) (v : State) : Prop :=
  v.station = .running ∧ (rowOf v.tables .peerLoss).action = .trip ∧ ∃ k, NewlyLost admitted v k

/-- The STARVED cause trips the station. -/
def Starves (raised : Prop) (v : State) : Prop :=
  raised ∧ v.station = .running ∧ (rowOf v.tables .starved).action = .trip

/-- The outcome of an application after its claim, with STARVED raised or not: the trip by a loss, the trip by STARVED, or none. -/
def Outcome (c : Slot) (admitted : StationSet) (v : State) (raised : Prop) (t : State) : Prop :=
  Bereaves admitted v ∧ Fallen .peerLoss v t ∨
    ¬Bereaves admitted v ∧ (Starves raised v ∧ Fallen .starved v t ∨ ¬Starves raised v ∧ AppliedTo c admitted v t)

/-- A cause that RUNNING evaluates and JOINED does not posts one report at most where it does not trip. -/
theorem takeCause_untripped {cause : Cause} (x : StationNo) (kind : Option MismatchKind) {s : State}
    (he : evaluated cause .joined = false) (hs : s.station = .running ∨ s.station = .joined)
    (h : ¬(s.station = .running ∧ (rowOf s.tables cause).action = .trip)) :
    ∃ l, takeCause cause x kind s = { s with host := { s.host with reports := postAll l s.host.reports } } := by
  rcases hs with hs | hs
  · obtain ⟨l, -, e⟩ := takeCause_mild cause x kind s fun hr => h ⟨hs, hr⟩
    exact ⟨l, e⟩
  · exact ⟨[], takeCause_idle cause x kind (by simp [actsOn, hs, he])⟩

section
variable {c : Slot} {admitted : StationSet} {v : State} (hv : v.station = .running ∨ v.station = .joined)

theorem AppliedTo.emptied {t : State} (h : AppliedTo c admitted v t) : AppliedTo c admitted v (emptied t) :=
  ⟨congrArg Machine.emptied h.rest, h.slot, h.lost, h.reports⟩

theorem Outcome.emptied {raised : Prop} {t : State} (h : Outcome c admitted v raised t) :
    Outcome c admitted v raised (emptied t) :=
  h.imp (And.imp_right Fallen.emptied) (And.imp_right (Or.imp (And.imp_right Fallen.emptied) (And.imp_right AppliedTo.emptied)))

/-- More reports come behind that of the application. -/
theorem AppliedTo.posted {t : State} (h : AppliedTo c admitted v t) (l : List Report) :
    AppliedTo c admitted v { t with host := { t.host with reports := postAll l t.host.reports } } := by
  obtain ⟨later, posts⟩ := h.reports
  refine ⟨?_, h.slot, h.lost, later ++ l, ?_⟩
  · have e := congrArg (fun t : State => { t with host := { t.host with reports := postAll l t.host.reports } }) h.rest
    exact e
  · dsimp only; rw [posts, ← postAll_append]; rfl

theorem AppliedTo.recheck {t : State} (h : AppliedTo c admitted v t) : AppliedTo c admitted v (recheck t) := by
  unfold Machine.recheck; split
  · exact ⟨congrArg (setSlot (dropProposal t)) h.rest, .inr ⟨rfl, rfl⟩, h.lost, h.reports⟩
  · exact h

include hv

/-- The losses that the application makes are judged at once (R39). -/
theorem outcome_judged (hp : v.pending = []) (hc : v.change.slot = c) :
    Outcome c admitted v False (recheck (rejudgeView admitted (closeSlot .applied c.proposer .noReason v))) := by
  obtain ⟨x, hx⟩ : ∃ x, x = closeSlot .applied c.proposer .noReason v := ⟨_, rfl⟩
  have never : ¬Starves False v := fun q => q.1
  have closed : AppliedTo c admitted v (judgeView admitted x) := by
    rw [hx]
    refine ⟨rfl, .inl rfl, fun k => member_judgeView admitted v k, [], ?_⟩
    show arrive _ _ = _
    rw [hc]; rfl
  have newly (k : StationNo) : NewlyLost admitted x k ↔ NewlyLost admitted v k := by rw [hx]; rfl
  rw [← hx]
  rcases rejudgeView_cases admitted (s := x) (by rw [hx]; exact hp) with ⟨none, e⟩ | ⟨k, hk, e⟩
  · rw [e]
    exact .inr ⟨fun q => q.2.2.elim fun k hk => none k ((newly k).2 hk), .inr ⟨never, closed.recheck⟩⟩
  · have station : (judgeView admitted x).station = v.station := by rw [hx]; rfl
    have tables : (judgeView admitted x).tables = v.tables := by rw [hx]; rfl
    have entries : (judgeView admitted x).roster.entries = v.roster.entries := by rw [hx]; rfl
    rw [e]
    by_cases trips : v.station = .running ∧ (rowOf v.tables .peerLoss).action = .trip
    · rw [takeCause_trips _ _ (station.trans trips.1) rfl (by rw [tables]; exact trips.2)]
      exact .inl ⟨⟨trips.1, trips.2, k, (newly k).1 hk⟩, ((fallen_tripEntry ..).of_entries entries).recheck⟩
    · obtain ⟨l, e⟩ := takeCause_untripped (cause := .peerLoss) k none (s := judgeView admitted x) rfl (by rw [station]; exact hv)
        (by rw [station, tables]; exact trips)
      rw [e]
      exact .inr ⟨fun q => trips ⟨q.1, q.2.1⟩, .inr ⟨never, (closed.posted l).recheck⟩⟩

/-- A STARVED after the application (R65). -/
theorem Outcome.starved {raised : Prop} {t : State} (h : Outcome c admitted v raised t) :
    Outcome c admitted v True (takeOwnCause .starved t) := by
  rcases h with ⟨b, f⟩ | ⟨b, ⟨st, f⟩ | ⟨-, a⟩⟩
  · exact .inl ⟨b, f.starved⟩
  · exact .inr ⟨b, .inl ⟨⟨trivial, st.2⟩, f.starved⟩⟩
  · have station : t.station = v.station := congrArg (·.station) a.rest
    have tables : t.tables = v.tables := congrArg (·.tables) a.rest
    have entries : t.roster.entries = v.roster.entries := congrArg (·.roster.entries) a.rest
    refine .inr ⟨b, ?_⟩
    by_cases trips : v.station = .running ∧ (rowOf v.tables .starved).action = .trip
    · rw [takeOwnCause_starved_trips (station.trans trips.1) (by rw [tables]; exact trips.2)]
      exact .inl ⟨⟨trivial, trips⟩, (fallen_tripEntry ..).of_entries entries⟩
    · obtain ⟨l, e⟩ := takeCause_untripped (cause := .starved) t.number none (s := t) rfl (by rw [station]; exact hv)
        (by rw [station, tables]; exact trips)
      rw [takeOwnCause, e]
      exact .inr ⟨fun q => trips q.2, a.posted l⟩

end

/-- What the claim of an application keeps, whether the station is in the new set or not. -/
theorem applyClaim_keeps (c : Slot) {s : State} (hs : s.station = .joined ∨ s.station = .running)
    (stopped : s.station = .joined → s.carrier = Carrier.stopped ∧ s.gate = Gate.off) :
    let v := (applyClaim c s).1
    (v.station = .running ∨ v.station = .joined) ∧ (v.station = .running ↔ member s.number c.newSet = true) ∧
      v.change.slot = s.change.slot ∧ v.change.view = c.newSet ∧ v.change.profile = c.newProfile := by
  dsimp only
  cases hm : member s.number c.newSet with
  | true => rw [(claimed_applyClaim hm).rest]; simp
  | false =>
    obtain ⟨discord, e⟩ := applyClaim_joined c s hm hs stopped
    rw [e]; simp

/-- The outcome of an application whose tick has no other event (R64, R65). -/
theorem outcome_applyChange {s : State} (hp : s.pending = []) (hs : s.station = .joined ∨ s.station = .running)
    (stopped : s.station = .joined → s.carrier = Carrier.stopped ∧ s.gate = Gate.off) :
    let c := s.change.slot
    Outcome c (without c.newSet s.change.view) (applyClaim c s).1 ((applyClaim c s).2 = true) (applyChange s) := by
  intro c
  obtain ⟨state, -, slot, -⟩ := applyClaim_keeps c hs stopped
  have claim := steady_applyClaim c s
  have judged := outcome_judged (c := c) (admitted := without c.newSet s.change.view) state (claim.pending.trans hp) slot
  have idle := (((claim.trans (steady_closeSlot .applied c.proposer .noReason _)).trans
    (steady_rejudgeView (without c.newSet s.change.view) _)).trans (steady_recheck _)).pending.trans hp
  rw [applyChange_eq, raiseStarved_alone _ idle]
  cases (applyClaim c s).2 with
  | false => simpa using judged
  | true => simpa using Outcome.starved state judged

end Sys2Proof.Machine
end

section
/-! The application of an AGREED change at its mark (O42). -/

namespace Sys2Proof.Machine

/-! ## The station that the mark event finds (R10, R18) -/

/-- A mark without a slip numbers the next cycle, with one report at most (R18). -/
theorem numbered_stays (start : Nat) {s : State} (h : ¬Slips s) : ∃ l, l.length ≤ 1 ∧
    numbered start s = { s with
      carrier := { s.carrier with setThisTick := false }
      link := (numbered start s).link
      roster := { s.roster with mismatch := false }
      host := { s.host with reports := postAll l s.host.reports } } ∧
    (numbered start s).link.cycle = s.link.cycle + 1 := by
  obtain ⟨w, hw⟩ : ∃ w, w = markRestart (watched start s) := ⟨_, rfl⟩
  have hn : numbered start s =
      { agreeNumber w with roster := { (agreeNumber w).roster with mismatch := false } } := by rw [hw]; rfl
  rcases agreement_cases w with ⟨-, ha | hd⟩ | ⟨hs, -⟩
  · rw [hn, agreeNumber_agrees ha, hw]
    exact ⟨[], by simp, rfl, rfl⟩
  · have e := agreeNumber_differs hd
    cases discord : w.link.discord with
    | true => rw [discord] at e; rw [hn, e, hw]; exact ⟨[], by simp, rfl, rfl⟩
    | false => rw [discord] at e; rw [hn, e, hw]; exact ⟨[_], by simp, rfl, rfl⟩
  · exact absurd (by rw [hw] at hs; exact hs) h

/-- State `w` is a station in the group from which its AGREED change is applied at the mark, `n` reports at most after state `s`: the
gates and the setpoints are those of `before`, which is `s` or its re-phase. -/
structure Before (n : Nat) (s before w : State) : Prop where
  station : w.station = s.station
  number : w.number = s.number
  tables : w.tables = s.tables
  pending : w.pending = s.pending
  entries : w.roster.entries = s.roster.entries
  lost : w.roster.lost = s.roster.lost
  slot : w.change.slot = s.change.slot
  view : w.change.view = s.change.view
  cycle : w.link.cycle = s.link.cycle + 1
  stopped : s.station = .joined → w.carrier = Carrier.stopped ∧ w.gate = Gate.off
  gate : w.gate = before.gate
  setpoint : w.setpoint = before.setpoint
  reports : ∃ l, l.length ≤ n ∧ w.host.reports = postAll l s.host.reports

theorem Before.freed {n : Nat} {s before w : State} (h : Before n s before w) (k : Nat) : Before n s before { w with free := k } :=
  { h with }

theorem Before.posted {n m : Nat} {s before w : State} (h : Before n s before w) {l : List Report} (hl : l.length ≤ m) (k : Nat) :
    Before (n + m) s before { w with host := { w.host with reports := postAll l w.host.reports }, free := k } := by
  obtain ⟨first, room, posts⟩ := h.reports
  refine { h with reports := ⟨first ++ l, by simp; omega, ?_⟩ }
  dsimp only; rw [posts, postAll_append]

/-- An AGREED change at its effective cycle is what the mark event applies (R62, R64). -/
theorem changeMark_applies {w : State} (hg : inGroup w = true) (ha : w.change.slot.state = .agreed)
    (he : w.change.slot.effective = w.link.cycle) : changeMark w = emptied (applyChange w) := by
  have due : deadline w = applyChange w := by
    unfold deadline; dsimp only; rw [if_pos he, ha]
  rw [changeMark_deadline hg (.inl (by rw [ha]; exact nofun)), due]

/-- State `t` is the outcome of the application of the change of state `s` at the mark, begun beside `before` (R65; log entries 3 and
31): the STARVED that may trip the station is that of the immediate load or, in RUNNING, of the re-phase. -/
def Applied (s before t : State) : Prop :=
  ∃ w, Before 4 s before w ∧ before.setpoint.queue ⊆ s.setpoint.queue ∧ ∃ raised : Prop,
    ((applyClaim s.change.slot w).2 = true → raised) ∧
    (raised → (applyClaim s.change.slot w).2 = true ∨ s.station = .running) ∧
    Outcome s.change.slot (without s.change.slot.newSet s.change.view) (applyClaim s.change.slot w).1 raised t

/-- The change of state `s` is due at the next mark. -/
structure ChangeDue (s : State) : Prop where
  pending : s.pending = []
  group : s.station = .joined ∨ s.station = .running
  agreed : s.change.slot.state = .agreed
  effective : s.change.slot.effective = s.link.cycle + 1

section
variable {n : Nat} {s before w : State} (due : ChangeDue s) (h : Before n s before w) (hn : n ≤ 4)
  (hq : before.setpoint.queue ⊆ s.setpoint.queue)
include due h

theorem Before.inGroup : inGroup w = true := by
  unfold Machine.inGroup; rw [h.station]; rcases due.group with e | e <;> rw [e]

theorem Before.changeMark_eq : changeMark w = emptied (applyChange w) :=
  changeMark_applies (h.inGroup due) (by rw [h.slot]; exact due.agreed) (by rw [h.slot, h.cycle]; exact due.effective)

include hn hq

theorem Before.applied : Applied s before (changeMark w) := by
  obtain ⟨l, room, posts⟩ := h.reports
  have outcome := outcome_applyChange (h.pending.trans due.pending) (by rw [h.station]; exact due.group)
    (by rw [h.station]; exact h.stopped)
  dsimp only at outcome
  rw [h.slot, h.view] at outcome
  rw [h.changeMark_eq due]
  exact ⟨w, { h with reports := ⟨l, by omega, posts⟩ }, hq, _, id, .inl, outcome.emptied⟩

end

/-! ## Beside the re-phase of a running carrier (R65, R102; log entries 3, 31) -/

/-- A STARVED that is taken after the application (R65). -/
theorem Applied.starved {s before t : State} (hs : s.station = .running) (h : Applied s before t) :
    Applied s before (takeOwnCause .starved t) := by
  obtain ⟨w, b, hq, raised, -, -, outcome⟩ := h
  have group : w.station = .running := b.station.trans hs
  obtain ⟨state, -⟩ := applyClaim_keeps s.change.slot (.inr group) (by rw [group]; exact nofun)
  exact ⟨w, b, hq, True, fun _ => trivial, fun _ => .inr hs, outcome.starved state⟩

/-- The STARVED of the re-phase has tripped the station in place of the application, or the change has been applied. -/
def StarvedOrApplied (s before t : State) : Prop :=
  (rowOf s.tables .starved).action = .trip ∧ Fallen .starved s t ∨ Applied s before t

section
variable {s before w : State} (due : ChangeDue s) (hs : s.station = .running) (h : Before 3 s before w)
  (hq : before.setpoint.queue ⊆ s.setpoint.queue)
include due hs h hq

/-- A STARVED that is taken before the application (R65, R128). -/
theorem starved_then_change : StarvedOrApplied s before (changeMark (takeOwnCause .starved w)) := by
  have running : w.station = .running := h.station.trans hs
  by_cases trips : (rowOf s.tables .starved).action = .trip
  · rw [takeOwnCause_starved_trips running (by rw [h.tables]; exact trips), changeMark_tripped (tripEntry_station ..)]
    exact .inl ⟨trips, ((fallen_tripEntry ..).of_entries h.entries).emptied⟩
  · obtain ⟨l, room, e⟩ := takeCause_mild .starved w.number none w (by rw [h.tables]; exact trips)
    rw [takeOwnCause, e]
    exact .inr ((h.posted room w.free).applied due (by omega) hq)

theorem changeAfterLoad_applies (raised : Bool) : StarvedOrApplied s before (changeAfterLoad raised w) := by
  cases raised with
  | false =>
    have e : changeAfterLoad false w = changeMark w := by unfold changeAfterLoad; rw [if_neg (by simp)]; rfl
    rw [e]; exact .inr (h.applied due (by omega) hq)
  | true =>
    have falls : deadlineFalls w = true := by
      simp [deadlineFalls, h.inGroup due, h.slot, h.cycle, due.agreed, due.effective]
    unfold changeAfterLoad chooseFirst; dsimp only
    rw [if_pos ⟨rfl, falls⟩]
    split
    · exact starved_then_change due hs (h.freed _) hq
    · split
      · exact starved_then_change due hs (h.freed _) hq
      · obtain ⟨x, hx⟩ : ∃ x : State, x = { w with free := w.free + 1 } := ⟨_, rfl⟩
        have b : Before 3 s before x := by rw [hx]; exact h.freed _
        rw [← hx, raiseStarved_alone _ ((steady_changeMark x).pending.trans (b.pending.trans due.pending)), if_pos rfl]
        exact .inr ((b.applied due (by omega) hq).starved hs)

end

/-- A carrier that an application has set, or that it has stopped, is not re-phased again (R102). -/
theorem Applied.not_rephased {s before t : State} (due : ChangeDue s) (h : Applied s before t) : markRephase t = (t, false) := by
  obtain ⟨w, b, -, raised, -, -, outcome⟩ := h
  have idle : ¬(t.carrier.running = true ∧ t.carrier.setThisTick = false) := by
    have stopped (hc : t.carrier = Carrier.stopped) : ¬(t.carrier.running = true ∧ t.carrier.setThisTick = false) := by
      rw [hc]; exact fun q => nomatch q.1
    rcases outcome with ⟨-, f⟩ | ⟨-, ⟨-, f⟩ | ⟨-, a⟩⟩
    · exact stopped f.outputs.2.1
    · exact stopped f.outputs.2.1
    · have carrier : t.carrier = (applyClaim s.change.slot w).1.carrier := congrArg (·.carrier) a.rest
      cases hm : member w.number s.change.slot.newSet with
      | true =>
        rw [carrier, (claimed_applyClaim hm).rest]
        exact fun q => nomatch q.2
      | false =>
        obtain ⟨discord, e⟩ := applyClaim_joined _ w hm (by rw [b.station]; exact due.group) (by rw [b.station]; exact b.stopped)
        exact stopped (carrier.trans (by rw [e]))
  unfold markRephase; exact if_neg idle

/-- The re-phase before the application keeps what the application reads (R65, R100, R101). -/
theorem Before.rephased {n : Nat} {s u : State} (b : Before n s s u) (hs : s.station = .running) (running : u.carrier.running = true)
    (unset : u.carrier.setThisTick = false) : Before (n + 2) s (markRephase u).1 (markRephase u).1 := by
  obtain ⟨l, room, k, e⟩ := markRephase_eq u running unset
  obtain ⟨r, hr⟩ : ∃ r, r = (markRephase u).1 := ⟨_, rfl⟩
  obtain ⟨first, len, posts⟩ := b.reports
  rw [← hr] at e ⊢
  constructor
  case stopped => rw [hs]; exact nofun
  case reports => exact ⟨first ++ l, by simp; omega, by rw [e, postAll_append, ← posts]⟩
  all_goals rw [e]
  exacts [b.station, b.number, b.tables, b.pending, b.entries, b.lost, b.slot, b.view, b.cycle]

/-- The numbering of a mark without a slip keeps what the application reads (R18). -/
theorem before_numbered (start : Nat) {s : State} (h : ¬Slips s)
    (stopped : s.station = .joined → s.carrier = Carrier.stopped ∧ s.gate = Gate.off) : Before 1 s s (numbered start s) := by
  obtain ⟨l, room, e, cycle⟩ := numbered_stays start h
  constructor
  case stopped => intro q; rw [e, (stopped q).1]; exact ⟨rfl, (stopped q).2⟩
  case reports => exact ⟨l, room, by rw [e]⟩
  case cycle => exact cycle
  all_goals rw [e]

/-- The outcome of the mark at which an AGREED change is due (R64, R65). -/
theorem exec_dueMark {start : Nat} {s : State} (hp : s.pins.rstn = true) (law : OutputLaw s) (ht : tailStart s ≤ start)
    (hsh : start < cycleLength s - cycleLength s / 64 → s.link.shorts < 2) (hslip : ¬Slips s) (due : ChangeDue s) :
    ∃ t, exec (.markAccepted start) s = .next t ∧ (Applied s s t ∨
      s.station = .running ∧ StarvedOrApplied s (markRephase { numbered start s with free := s.free + 1 }).1 t) := by
  have onlink : onLink s = true := (onLink_iff s).2 (due.group.imp_right .inl)
  have still (q : s.station = .joined) : s.carrier = Carrier.stopped ∧ s.gate = Gate.off := (law.off (by rw [q]; exact nofun)).symm
  have b := before_numbered start hslip still
  have carrier : (numbered start s).carrier = { s.carrier with setThisTick := false } := by
    obtain ⟨l, -, e, -⟩ := numbered_stays start hslip
    rw [e]
  refine ⟨_, exec_acceptedMark hp onlink ht hsh, ?_⟩
  rcases due.group with hs | hs
  · have idle : (numbered start s).carrier.running = false := by rw [carrier, (still hs).1]; rfl
    rw [markEvent_stopped (s := agreeNumber (markRestart (watched start s))) idle]
    exact .inl (b.applied due (by omega) (List.Subset.refl _))
  · have running : (numbered start s).carrier.running = true := by rw [carrier]; exact law.runs hs
    obtain ⟨u, hu⟩ : ∃ u : State, u = { numbered start s with free := s.free + 1 } := ⟨_, rfl⟩
    have bu : Before 1 s s u := by rw [hu]; exact b.freed _
    have set : u.carrier = { s.carrier with setThisTick := false } := by rw [hu]; exact carrier
    rw [← hu, markEvent_running (s := agreeNumber (markRestart (watched start s))) running (hu.trans (numbered_free start s))]
    split
    · have rephased := bu.rephased hs (by rw [set]; exact law.runs hs) (by rw [set])
      have subset : (markRephase u).1.setpoint.queue ⊆ s.setpoint.queue := by
        rw [← bu.setpoint]; exact markRephase_queue_subset u
      exact .inr ⟨hs, changeAfterLoad_applies due hs rephased subset _⟩
    · have applied := bu.applied due (by omega) (List.Subset.refl _)
      rw [applied.not_rephased due]
      exact .inl applied

end Sys2Proof.Machine
end

section
/-! The conditions of O42 read at the mark, and O42 itself (R38, R39, R64, R115, R116, R125, R127, R136). -/

namespace Sys2Proof.Machine

/-! ## What trips at the mark, in the terms of the state before it (R38, R39, R125) -/

/-- The application admits station `k`, and its entry still reads JOINED in the group (R39; log entry 34). -/
def Enters (s : State) (k : StationNo) : Prop :=
  member k s.change.view = false ∧ s.roster.entries[k].presence = .present ∧ s.roster.entries[k].state = some .joined ∧
    s.roster.entries[k].group = s.tables.link.group

/-- The new view makes a member newly lost at a station in it (R38, R39). -/
def Bereft (s : State) : Prop :=
  member s.number s.change.slot.newSet = true ∧ ∃ k : StationNo, k ≠ s.number ∧ member k s.change.slot.newSet = true ∧
    member k s.roster.lost = false ∧ lostEntry s.tables.link.group s.roster.entries[k] = true ∧ ¬Enters s k

/-- The immediate load at a station in the new view starves at a limit of 1 (R125, R127). -/
def Unfed (s : State) : Prop := member s.number s.change.slot.newSet = true ∧ LoadStarves s.change.slot s

/-- State `v` is the claim of the change of state `s` at the mark, in what the losses and the reports read. -/
structure AtMark (s v : State) : Prop where
  number : v.number = s.number
  tables : v.tables = s.tables
  entries : v.roster.entries = s.roster.entries
  cycle : v.link.cycle = s.link.cycle + 1
  view : v.change.view = s.change.slot.newSet
  profile : v.change.profile = s.change.slot.newProfile
  state : v.station = .running ∨ v.station = .joined
  station : v.station = .running ↔ member s.number s.change.slot.newSet = true

section
variable {s : State}

section
variable {n : Nat} {before w : State} (due : ChangeDue s) (b : Before n s before w)
include due b

theorem Before.stops : (w.station = .joined ∨ w.station = .running) ∧
    (w.station = .joined → w.carrier = Carrier.stopped ∧ w.gate = Gate.off) := by
  rw [b.station]; exact ⟨due.group, b.stopped⟩

theorem Before.atMark : AtMark s (applyClaim s.change.slot w).1 := by
  obtain ⟨group, stopped⟩ := b.stops due
  obtain ⟨state, station, -, view, profile⟩ := applyClaim_keeps s.change.slot group stopped
  have claim := steady_applyClaim s.change.slot w
  rw [b.number] at station
  exact ⟨claim.number.trans b.number, claim.tables.trans b.tables, claim.entries.trans b.entries,
    by rw [claim.link, b.cycle], view, profile, state, station⟩

/-- A claim judges no loss, and posts two reports at most. -/
theorem Before.claim_roster : (applyClaim s.change.slot w).1.roster.lost = s.roster.lost ∧
    ∃ l, l.length ≤ 2 ∧ (applyClaim s.change.slot w).1.host.reports = postAll l w.host.reports := by
  rw [← b.lost]
  obtain ⟨group, stopped⟩ := b.stops due
  cases hm : member w.number s.change.slot.newSet with
  | true =>
    have claimed := claimed_applyClaim hm
    exact ⟨by rw [claimed.rest], claimed.reports⟩
  | false =>
    obtain ⟨discord, e⟩ := applyClaim_joined s.change.slot w hm group stopped
    rw [e]; exact ⟨rfl, [], by simp, rfl⟩

end

section
variable {v : State} (m : AtMark s v)
include m

theorem AtMark.isLost_iff (k : StationNo) : isLost v k = true ↔
    member k s.change.slot.newSet = true ∧ k ≠ s.number ∧ lostEntry s.tables.link.group s.roster.entries[k] = true := by
  simp [isLost, entryOf, m.view, m.number, m.tables, m.entries, and_assoc]

/-- A lost member of the new view is spared exactly where it enters (log entry 34). -/
theorem AtMark.entering_iff {k : StationNo} (hk : member k s.change.slot.newSet = true) :
    entering (without s.change.slot.newSet s.change.view) v k = false ↔ ¬Enters s k := by
  have spared : entering (without s.change.slot.newSet s.change.view) v k = true ↔ Enters s k := by
    simp only [entering, advertises, inOtherGroup, isPresent, entryOf, m.entries, m.tables, member_without, hk, Enters]
    simp only [Fin.getElem_fin, Bool.and_eq_true, Bool.not_eq_true', beq_iff_eq, Bool.and_eq_false_imp, bne_eq_false_iff_eq,
      true_and, and_assoc]
    exact and_congr_right fun _ => and_congr_right fun here => and_congr_right fun _ => forall_prop_of_true here
  rw [← spared, Bool.not_eq_true]

theorem AtMark.lost_iff (k : StationNo) :
    isLost v k = true ∧ entering (without s.change.slot.newSet s.change.view) v k = false ↔ isLost v k = true ∧ ¬Enters s k :=
  and_congr_right fun h => m.entering_iff ((m.isLost_iff k).1 h).1

theorem AtMark.bereaves_iff (lost : v.roster.lost = s.roster.lost) : Bereaves (without s.change.slot.newSet s.change.view) v ↔
    (rowOf s.tables .peerLoss).action = .trip ∧ Bereft s := by
  have newly (k : StationNo) : NewlyLost (without s.change.slot.newSet s.change.view) v k ↔
      k ≠ s.number ∧ member k s.change.slot.newSet = true ∧ member k s.roster.lost = false ∧
        lostEntry s.tables.link.group s.roster.entries[k] = true ∧ ¬Enters s k := by
    unfold NewlyLost
    rw [← and_assoc, m.lost_iff k, m.isLost_iff k, lost]; tauto
  unfold Bereaves Bereft
  rw [m.station, m.tables, exists_congr newly]; tauto

theorem AtMark.starves_iff {raised : Prop} : Starves raised v ↔
    raised ∧ member s.number s.change.slot.newSet = true ∧ (rowOf s.tables .starved).action = .trip := by
  unfold Starves; rw [m.station, m.tables]

end

/-! ## The outcome in these terms (R64, R65, R136) -/

/-- The cause of a trip at the mark of the change of state `s`, and why it trips. -/
def Felled (s : State) (cause : Cause) : Prop :=
  cause = .peerLoss ∧ (rowOf s.tables .peerLoss).action = .trip ∧ Bereft s ∨
    cause = .starved ∧ (rowOf s.tables .starved).action = .trip ∧ (Unfed s ∨ s.station = .running)

/-- The change of state `s` stands applied in state `t`, from a state `w` beside `before`, and nothing had to trip. -/
structure Survived (s before w t : State) : Prop where
  from_mark : Before 4 s before w
  unbereft : ¬((rowOf s.tables .peerLoss).action = .trip ∧ Bereft s)
  fed : ¬((rowOf s.tables .starved).action = .trip ∧ Unfed s)
  applied : AppliedTo s.change.slot (without s.change.slot.newSet s.change.view) (applyClaim s.change.slot w).1 t

/-- A STARVED of the immediate load, where the station is in the new view (R125, R127). -/
theorem Before.raises_iff {n : Nat} {before w : State} (b : Before n s before w) :
    member s.number s.change.slot.newSet = true ∧ (applyClaim s.change.slot w).2 = true ↔
      member s.number s.change.slot.newSet = true ∧ (profileAt s.tables s.change.slot.newProfile).source = .queue ∧
        s.tables.link.starveLimit = 1 ∧ ∀ x ∈ before.setpoint.queue, x.tag ≠ s.change.slot.newProfile := by
  refine and_congr_right fun hm => ?_
  rw [applyClaim_raises (by rw [b.number]; exact hm)]
  unfold LoadStarves; rw [b.tables, b.setpoint]

theorem Applied.outcome {before t : State} (due : ChangeDue s) (h : Applied s before t) (hb : before = s ∨ s.station = .running) :
    (∃ cause, Fallen cause s t ∧ Felled s cause) ∨ ∃ w, Survived s before w t := by
  obtain ⟨w, b, subset, raised, load, rephase, outcome⟩ := h
  have m := b.atMark due
  have raises := b.raises_iff
  unfold Outcome at outcome
  rw [m.bereaves_iff (b.claim_roster due).1, m.starves_iff] at outcome
  rcases outcome with ⟨bereft, f⟩ | ⟨unbereft, ⟨⟨hr, hm, trips⟩, f⟩ | ⟨fed, a⟩⟩
  · exact .inl ⟨_, f.of_entries m.entries, .inl ⟨rfl, bereft⟩⟩
  · refine .inl ⟨_, f.of_entries m.entries, .inr ⟨rfl, trips, ?_⟩⟩
    rcases hb with rfl | hs
    · exact (rephase hr).imp_left fun q => raises.1 ⟨hm, q⟩
    · exact .inr hs
  · refine .inr ⟨w, b, unbereft, fun ⟨trips, hm, source, limit, stale⟩ => fed ⟨load ?_, hm, trips⟩, a⟩
    exact (raises.2 ⟨hm, source, limit, fun x hx => stale x (subset hx)⟩).2

/-! ## An application that nothing trips (R64, R98, R99, R115, R116, R127) -/

section
variable {before w t : State} (due : ChangeDue s) (h : Survived s before w t)

include h in
/-- The outputs are those of the claim. -/
theorem Survived.outputs : let v := (applyClaim s.change.slot w).1
    t.station = v.station ∧ t.carrier = v.carrier ∧ t.gate = v.gate ∧ t.setpoint = v.setpoint :=
  ⟨congrArg (·.station) h.applied.rest, congrArg (·.carrier) h.applied.rest, congrArg (·.gate) h.applied.rest,
    congrArg (·.setpoint) h.applied.rest⟩

include due h

theorem Survived.atMark : AtMark s t := by
  have m := h.from_mark.atMark due
  constructor
  all_goals rw [h.applied.rest]
  exacts [m.number, m.tables, m.entries, m.cycle, m.view, m.profile, m.state, m.station]

/-- The lost members of the new view but those that enter it (R38; log entry 34). -/
theorem Survived.lost (k : StationNo) : member k t.roster.lost = true ↔ isLost t k = true ∧ ¬Enters s k := by
  have m := h.from_mark.atMark due
  rw [h.applied.lost k, m.lost_iff k, m.isLost_iff k, (h.atMark due).isLost_iff k]

/-- The APPLIED report finds room behind eight others (R66, R169). -/
theorem Survived.report (room : s.host.reports.length ≤ 8) :
    ⟨.changeClosed .applied s.change.slot.sequence s.change.slot.remote s.change.slot.automatic .noReason, false,
      s.link.cycle + 1, s.change.slot.proposer⟩ ∈ t.host.reports := by
  obtain ⟨later, posts⟩ := h.applied.reports
  obtain ⟨l, len, first⟩ := h.from_mark.reports
  obtain ⟨-, l', len', claim⟩ := h.from_mark.claim_roster due
  have cycle := (h.from_mark.atMark due).cycle
  rw [posts, claim, first, ← cycle, postAll_cons, ← postAll_append, postAll_of_room (reports := l ++ l') (by simp; omega)]
  refine mem_postAll ?_ later
  rw [arrive_of_lt (by simp; omega), List.take_of_length_le (by simp; omega)]
  exact List.mem_append_right _ List.mem_cons_self

/-- A station outside the new view leaves RUNNING with its outputs (R99, R116). -/
theorem Survived.joined (hb : before = s ∨ s.station = .running) (hm : ¬member s.number s.change.slot.newSet = true) :
    t.station = .joined ∧ t.carrier = Carrier.stopped ∧ t.gate = Gate.off ∧
      t.setpoint = if s.station = .running then SetpointUnit.empty
        else { SetpointUnit.empty with queue := s.setpoint.queue } := by
  have b := h.from_mark
  obtain ⟨group, stopped⟩ := b.stops due
  obtain ⟨discord, e⟩ := applyClaim_joined s.change.slot w (by rw [b.number]; simpa using hm) group stopped
  have outputs := h.outputs
  rw [e] at outputs
  dsimp only at outputs
  obtain ⟨station, carrier, gate, setpoint⟩ := outputs
  rw [b.station, b.setpoint] at setpoint
  refine ⟨station, carrier, gate, setpoint.trans ?_⟩
  rcases hb with rfl | hs
  · rfl
  · rw [if_pos hs, if_pos hs]

end

section
variable {before w t : State} (h : Survived s before w t) (hm : member s.number s.change.slot.newSet = true)
include h hm

theorem Survived.claimed : Claimed s.change.slot w (applyClaim s.change.slot w).1 :=
  claimed_applyClaim (by rw [h.from_mark.number]; exact hm)

/-- A station in the new view runs its carrier from the new offset (R64, R98). -/
theorem Survived.carrier : t.carrier = appliedCarrier s s.change.slot := by
  rw [h.outputs.2.1, (h.claimed hm).rest]
  unfold appliedCarrier; rw [h.from_mark.tables, h.from_mark.number]

omit hm in
theorem Survived.carrierNow : carrierNow t = carrierNow (applyClaim s.change.slot w).1 := by
  unfold Machine.carrierNow; rw [h.outputs.2.1]

end

end

theorem state_of_inGroup {s : State} (h : inGroup s = true) : s.station = .joined ∨ s.station = .running := by
  unfold inGroup at h; split at h
  · exact .inl ‹_›
  · exact .inr ‹_›
  all_goals cases h

/-- The mark at which an AGREED change is due trips the station or leaves the change applied (R64, R65, R136). -/
theorem exec_dueMark_outcome {start : Nat} {s : State} (hp : s.pins.rstn = true) (law : OutputLaw s) (tail : tailStart s ≤ start)
    (short : start < cycleLength s - cycleLength s / 64 → s.link.shorts < 2) (slipless : ¬Slips s) (due : ChangeDue s) :
    ∃ t, exec (.markAccepted start) s = .next t ∧ ((∃ cause, Fallen cause s t ∧ Felled s cause) ∨
      ∃ before w, (before = s ∨
          s.station = .running ∧ before = (markRephase { numbered start s with free := s.free + 1 }).1) ∧
        Survived s before w t) := by
  obtain ⟨t, step, taken⟩ := exec_dueMark hp law tail short slipless due
  refine ⟨t, step, ?_⟩
  rcases taken with applied | ⟨running, ⟨row, fallen⟩ | applied⟩
  · exact (applied.outcome due (.inl rfl)).imp_right fun ⟨w, h⟩ => ⟨s, w, .inl rfl, h⟩
  · exact .inl ⟨_, fallen, .inr ⟨rfl, row, .inr running⟩⟩
  · exact (applied.outcome due (.inr running)).imp_right fun ⟨w, h⟩ => ⟨_, w, .inr ⟨running, rfl⟩, h⟩

/-- Settles O42: the mark event takes the change from the state of the mark or from its re-phase; the claim of the application gives
the outputs, and after it a loss under the new view, a STARVED or neither ends it. -/
theorem agreedChangeIsAppliedAtItsMark : Obligations.AgreedChangeIsAppliedAtItsMark := by
  intro start s hp law idle group tail short tally agreed effective c p period applier trips enters bereaved starved rephased
  have due : ChangeDue s := ⟨idle, state_of_inGroup group, agreed, effective⟩
  have slipless : ¬Slips s := fun ⟨v, other, heard, all⟩ => other (tally v heard all)
  obtain ⟨t, step, outcome⟩ := exec_dueMark_outcome hp law tail short slipless due
  refine ⟨t, step, ?_⟩
  rcases outcome with ⟨cause, fallen, felled⟩ | ⟨before, w, origin, h⟩
  · have station := fallen.station
    refine ⟨fun _ _ => station, fun _ _ => station, fun _ => ⟨?_, ?_⟩, fun up => absurd station up⟩
    · rw [fallen.first]
      rcases felled with ⟨rfl, why⟩ | ⟨rfl, why⟩
      · exact .inl ⟨rfl, why⟩
      · exact .inr ⟨rfl, why⟩
    · obtain ⟨gate, carrier, setpoint⟩ := fallen.outputs
      obtain ⟨slot, view, profile⟩ := fallen.change
      exact ⟨gate, carrier, setpoint, slot, view, profile, fallen.entries⟩
  · have m := h.atMark due
    have up : t.station ≠ .tripped := by rcases m.state with e | e <;> rw [e] <;> exact nofun
    refine ⟨fun lost row => absurd ⟨row, lost⟩ h.unbereft, fun unfed row => absurd ⟨row, unfed⟩ h.fed,
      fun down => absurd down up, fun _ => ⟨m.view, m.profile, m.cycle, ?_, fun hm => ?_,
        h.joined due (origin.imp_right And.left), h.lost due, m.entries, h.report due⟩⟩
    · exact h.applied.slot
    · have b := h.from_mark
      obtain ⟨-, -, gate, setpoint⟩ := h.outputs
      obtain ⟨-, -, deadTime, starves, takes, pattern, legs⟩ := h.claimed hm
      rw [← h.carrierNow] at legs
      rw [← gate, ← setpoint, b.tables, b.gate] at legs
      rw [← setpoint, b.tables, b.setpoint] at starves takes pattern
      rw [← gate, b.tables] at deadTime
      refine ⟨m.station.2 hm, ?_⟩
      rw [h.carrier hm]
      refine ⟨rfl, rfl, rfl, rfl, rfl, rfl, deadTime, before, origin, fun source => ?_, pattern, legs⟩
      split
      · exact starves source ‹_›
      · exact takes source _ _ ‹_›

end Sys2Proof.Machine
end

section
/-! SUPPORT. A cause that is taken outside RUNNING, the trip line at an entry into JOINED, what answering a host command leaves of a
withdrawal, and the station while RSTn is low (R89, R91, R133, R135, R136). -/

namespace Sys2Proof.Machine

/-! ## A cause that is taken (R133, R135, R136) -/

theorem takeCause_of_report {c : Cause} {s : State} (x : StationNo) (k : Option MismatchKind) (he : evaluated c s.station = true)
    (hr : (rowOf s.tables c).action = .report) : takeCause c x k s = post (.causeSeen c s.station k) x s := by
  unfold takeCause; rw [if_pos he]; dsimp only; rw [hr]

theorem takeCause_of_trip {c : Cause} {s : State} (x : StationNo) (k : Option MismatchKind) (he : evaluated c s.station = true)
    (hr : (rowOf s.tables c).action = .trip) : takeCause c x k s = tripClaim c (rowOf s.tables c).drive x k s := by
  unfold takeCause; rw [if_pos he]; dsimp only; rw [hr]

theorem actsOn_of_passive {c : Cause} {s : State}
    (hr : (rowOf s.tables c).action = .ignore ∨ (rowOf s.tables c).action = .respace) : actsOn c s = false := by
  unfold actsOn
  rcases hr with e | e <;> rw [e] <;> exact Bool.and_false _

theorem tripClaim_inGroup (c : Cause) (d : Bool) (x : StationNo) (k : Option MismatchKind) {s : State}
    (h : s.station = .joined ∨ s.station = .running) : tripClaim c d x k s = tripEntry c d x k s := by
  unfold tripClaim
  rcases h with e | e <;> rw [e]

theorem tripClaim_tripped (c : Cause) (d : Bool) (x : StationNo) (k : Option MismatchKind) {s : State}
    (h : s.station = .tripped) : tripClaim c d x k s = addCause c x k s := by
  unfold tripClaim; rw [h]

/-! ## The trip line at an entry into JOINED (R133) -/

section
variable {s : State}

theorem raiseTripLine_idle (h : s.trip.tripLine.asserted = false ∨ (rowOf s.tables .tripLine).action = .ignore ∨
    (rowOf s.tables .tripLine).action = .respace) : raiseTripLine s = s := by
  unfold raiseTripLine
  rcases h with h | h
  · rw [if_neg (by simp [h])]
  · rw [takeOwnCause, takeCause_idle _ _ _ (actsOn_of_passive h), ite_self]

variable (joined : s.station = .joined) (low : s.trip.tripLine.asserted = true)
include joined low

theorem raiseTripLine_reports (hr : (rowOf s.tables .tripLine).action = .report) :
    raiseTripLine s = postSelf (.causeSeen .tripLine .joined none) s := by
  unfold raiseTripLine
  rw [if_pos low, takeOwnCause, takeCause_of_report _ _ (by rw [joined]; rfl) hr, joined]; rfl

theorem raiseTripLine_trips (hr : (rowOf s.tables .tripLine).action = .trip) :
    TrippedBy .tripLine (rowOf s.tables .tripLine).drive s.number none s (raiseTripLine s) := by
  unfold raiseTripLine
  rw [if_pos low, takeOwnCause, takeCause_of_trip _ _ (by rw [joined]; rfl) hr, tripClaim_inGroup _ _ _ _ (.inl joined)]
  exact trippedBy_tripEntry ..

end

/-! ## Withdrawals by a host command (R86, R87, R89) -/

/-- A withdrawal reads nothing of the last command, and is the same before and after the answer to its command. -/
theorem Withdrawn.answered {cause : WithdrawalCause} {claimant : List Report} {code : Byte} {s t : State}
    (h : Withdrawn cause claimant (withCommand code s) t) (result : ResultCode) :
    Withdrawn cause claimant s (setResultOpen result t) :=
  ⟨h.station, h.link, h.roster, h.change, h.outputs, h.trip, h.tables, h.registers, h.reports, h.kept, h.now, h.released⟩

/-- A host command that withdraws the station: the withdrawal, the answer and the last command (R86, R87). -/
theorem withdrawn_answered (cause : WithdrawalCause) (code : Byte) (result : ResultCode) (s : State) :
    Withdrawn cause [] s (setResultOpen result (withdraw cause (withCommand code s))) ∧
      (setResultOpen result (withdraw cause (withCommand code s))).host.result = result ∧
      (setResultOpen result (withdraw cause (withCommand code s))).host.lastCommand = code :=
  ⟨(withdrawn_withdraw cause [] (withCommand code s)).answered result, rfl, (resultKept_withdraw cause (withCommand code s)).1⟩

/-! ## The station while RSTn is low (R91) -/

/-- While RSTn is low the outputs are released (R91). -/
theorem outputs_unpowered {s : State} (h : s.pins.rstn = false) :
    (∀ (leg : Leg) (side : Side), gatePin s leg side = false) ∧
      ltxDominant s = false ∧ trpnDriven s = false ∧ irqnLow s = false := by
  simp [gatePin, ltxDominant, trpnDriven, irqnLow, h]

theorem whilePowered_off {s : State} (f : State → State) (h : s.pins.rstn = false) : whilePowered s f = .next s := by
  simp [whilePowered, h]

/-- While RSTn is low no command but POWER_ON has an effect (log entry 9). -/
theorem exec_unpowered {c : Instr} {s : State} (h : s.pins.rstn = false) (hw : c.wellFormed = true)
    (hc : ∀ ids, c ≠ .powerOn ids) : exec c s = .next s := by
  cases c with
  | powerOn ids => exact absurd rfl (hc ids)
  | rstnLow =>
    have e : { s.pins with rstn := false } = s.pins := by rw [← h]
    exact congrArg (fun p => Host.Outcome.next { s with pins := p }) e
  | unknownCommand code =>
    have known : ¬code < 0x0E#8 := BitVec.not_lt.2 (of_decide_eq_true hw)
    exact (if_neg known).trans (whilePowered_off _ h)
  | frameReceived _ _ => unfold exec execFrameReceived; exact whilePowered_off _ h
  | windowEnd _ => unfold exec execWindowEnd; exact whilePowered_off _ h
  | _ => exact whilePowered_off _ h

end Sys2Proof.Machine
end

section
/-! One command a step (O1), the RSTn pin (O3), and the laws of the device at reset (O4). -/

namespace Sys2Proof.Machine

/-- Settles O1: the queue of the step is not empty. -/
theorem stepRunsFrontCommand : Obligations.StepRunsFrontCommand := by
  intro c rest s front
  unfold step; rw [front]

/-! ## POWER_ON (R91, R153) -/

/-- The number sampled from the ID pins, ID0 the least significant (R153). -/
theorem idNumber_val (ids : IdPins) :
    (idNumber ids).val = ids.id0.toNat + 2 * ids.id1.toNat + 4 * ids.id2.toNat + 8 * ids.id3.toNat := by
  have all : ∀ a b c d : Bool,
      (idNumber ⟨a, b, c, d⟩).val = a.toNat + 2 * b.toNat + 4 * c.toNat + 8 * d.toNat := by decide
  exact all ids.id0 ids.id1 ids.id2 ids.id3

/-- At power-on the gate pins are low: the levels shown from the last tick are low, and those of the gates forced off are too. -/
theorem gatePin_powerOn (number : StationNo) (pins : Pins) (free : Nat) (pending : List Instr) (leg : Leg) (side : Side) :
    gatePin (State.powerOn number pins free pending) leg side = false := by
  have levels : (if tickOver (State.powerOn number pins free pending) then pinLevels (State.powerOn number pins free pending)
      else (State.powerOn number pins free pending).now.shown) = Moment.rest.shown := ite_self _
  have low : pinOf (Moment.rest.shown.get leg) side = false := by cases leg <;> cases side <;> rfl
  rw [gatePin, levels, low, Bool.and_false]

/-- Settles O3: POWER_ON makes the power-on state, and RSTN_LOW the state in which nothing has an effect. -/
theorem resetPinSetsAndReleases : Obligations.ResetPinSetsAndReleases := by
  refine ⟨fun ids s => ⟨_, rfl, idNumber_val ids, rfl, rfl, rfl, rfl, rfl, rfl, rfl, rfl, rfl, rfl, rfl, rfl, rfl,
    gatePin_powerOn _ _ _ _, rfl, rfl, rfl⟩, fun s => ⟨_, rfl, rfl, ?_⟩⟩
  obtain ⟨gates, ltx, trpn, irqn⟩ := outputs_unpowered (s := { s with pins := { s.pins with rstn := false } }) rfl
  exact ⟨gates, ltx, trpn, irqn, fun _ hw hc => exec_unpowered rfl hw hc⟩

/-! ## The laws at reset (R91) -/

theorem outputLaw_reset : OutputLaw State.reset where
  legs leg := by cases leg <;> exact legSafe_off
  off _ := ⟨rfl, rfl⟩
  runs := nofun

theorem recordLaw_reset : RecordLaw State.reset where
  clear _ := ⟨rfl, rfl, rfl, rfl, rfl⟩
  tripped := nofun

theorem tableLaw_reset : TableLaw State.reset where
  link := by unfold linkInRange; decide
  profiles := by unfold profileInRange; decide
  parked := rfl
  causes := by unfold rowAllowed; decide
  frozen := by decide
  starve := Nat.zero_le _
  idle _ := rfl

/-- Settles O4: the power-on state is OFFLINE and at rest, and its tables are the defaults. -/
theorem resetKeepsTheLaws : Obligations.ResetKeepsTheLaws :=
  ⟨⟨Nat.zero_le _, Nat.zero_le _⟩, outputLaw_reset, viewLaw_resting nofun rfl rfl rfl rfl nofun, recordLaw_reset,
    tableLaw_reset, ((sending_iff _).1 (sending_resting (q := 0) rfl rfl rfl rfl)).1⟩

end Sys2Proof.Machine
end

section
/-! JOIN (O19), LEAVE (O20) and RESTART (O21). -/

namespace Sys2Proof.Machine

theorem exec_join {s : State} (h : s.pins.rstn = true) : exec .join s = .next (issue 0x01 joinStep s) := whilePowered_on _ h

theorem exec_leave {s : State} (h : s.pins.rstn = true) : exec .leave s = .next (issue 0x02 leaveStep s) :=
  whilePowered_on _ h

theorem exec_restart {s : State} (h : s.pins.rstn = true) : exec .restart s = .next (issue 0x03 restartStep s) :=
  whilePowered_on _ h

/-! ## JOIN (R78, R79, R85) -/

theorem assertedFault_iff (a : Action) (s : State) (i : Fin 4) :
    assertedFault a s i = true ↔ s.trip.faults[i].asserted = true ∧ (rowOf s.tables (.fault i)).action = a := by
  simp [assertedFault]

theorem faultInputs_eq : faultInputs = List.finRange 4 := rfl

/-- The first fault input that meets a test is the lowest. -/
theorem find?_faultInputs {p : Fin 4 → Bool} {i : Fin 4} (hp : p i = true) (hl : ∀ j, j < i → ¬p j = true) :
    faultInputs.find? p = some i := by
  rw [faultInputs_eq, List.find?_eq_some_iff_getElem]
  exact ⟨hp, i.val, by simp, by simp, fun j hj => by simpa using hl ⟨j, by omega⟩ hj⟩

/-- The CAUSE_SEEN of the entry into LISTENING change the report queue alone. -/
theorem reportFaults_eq (s : State) :
    reportFaults s = { s with host := { s.host with reports := (reportFaults s).host.reports } } := by
  unfold reportFaults
  induction faultInputs generalizing s with
  | nil => rfl
  | cons i rest ih =>
    rw [List.foldl_cons]
    split
    · exact ih (postSelf (.causeSeen (.fault i) s.station none) s)
    · exact ih s

/-- Without an asserted fault input under a REPORT row there is none of them. -/
theorem reportFaults_quiet {s : State} (h : ∀ i, ¬assertedFault .report s i = true) : reportFaults s = s :=
  List.foldl_fixed' (fun i => if_neg (h i)) faultInputs

section
variable {s : State}

theorem joinStep_outside (ho : s.station ≠ .offline) : joinStep s = refuseState s := if_pos ho

variable (ho : s.station = .offline)
include ho

theorem joinStep_invalid {d : Nat} (hv : firstInvalid s.tables s.number = some d) :
    joinStep s = setResult .refusedInvalid (natByte d) s := by
  unfold joinStep; rw [if_neg (not_not.2 ho), hv]

variable (hv : firstInvalid s.tables s.number = none)
include hv

theorem joinStep_blocked {i : Fin 4} (hi : assertedFault .trip s i = true) (hl : ∀ j, j < i → ¬assertedFault .trip s j = true) :
    joinStep s = setResult .refusedFaultActive (natByte i.val) s := by
  unfold joinStep; rw [if_neg (not_not.2 ho), hv, find?_faultInputs hi hl]

theorem joinStep_enters (hf : ∀ i, ¬assertedFault .trip s i = true) :
    joinStep s = setResultOpen .done (reportFaults (enterListening s)) := by
  have none : faultInputs.find? (assertedFault .trip s) = none := List.find?_eq_none.2 fun i _ => hf i
  unfold joinStep; rw [if_neg (not_not.2 ho), hv, none]

end

/-- Settles O19: the three checks, each behind those before it, and the entry into LISTENING with the reports it brings. -/
theorem joinEntersListening : Obligations.JoinEntersListening := by
  intro s hp refused blocks
  rw [exec_join hp, issue_eq]
  have blocked (i : Fin 4) : assertedFault .trip (withCommand 0x01 s) i = true ↔ blocks i := assertedFault_iff .trip s i
  refine ⟨fun ho => ?_, fun d ho hv => ?_, fun i ho hv hi hl => ?_, fun ho hv hf => ⟨_, rfl, ?_⟩⟩
  · rw [joinStep_outside (s := withCommand 0x01 s) ho]; rfl
  · rw [joinStep_invalid (s := withCommand 0x01 s) ho hv]; rfl
  · rw [joinStep_blocked (s := withCommand 0x01 s) ho hv ((blocked i).2 hi) fun j hj => mt (blocked j).1 (hl j hj)]; rfl
  · rw [joinStep_enters (s := withCommand 0x01 s) ho hv fun i => mt (blocked i).1 (hf i)]
    have quiet (h : ∀ i : Fin 4, s.trip.faults[i].asserted = true → (rowOf s.tables (.fault i)).action ≠ .report) :
        reportFaults (enterListening (withCommand 0x01 s)) = enterListening (withCommand 0x01 s) :=
      reportFaults_quiet fun i hi => ((assertedFault_iff .report s i).1 hi).elim (h i)
    refine ⟨?_, ?_, ?_, rfl, ?_, ?_, ?_, ?_, ?_, ?_, ?_, ?_, ?_, ?_, ?_, ?_, ?_, ?_, fun h => by rw [quiet h]; rfl⟩
    all_goals rw [reportFaults_eq]; rfl

/-! ## LEAVE and RESTART (R86, R87, R89) -/

theorem heldByElectorate_iff (s : State) : heldByElectorate s = true ↔
    s.change.slot.state ≠ .vacant ∧ member s.number s.change.slot.electorate = true := by
  simp [heldByElectorate]

section
variable {s : State}

theorem leaveStep_withdraws
    (h : s.station = .listening ∨ s.station = .tripped ∨ s.station = .joined ∧ ¬heldByElectorate s = true) :
    leaveStep s = setResultOpen .done (withdraw .leave s) := by
  unfold leaveStep
  rcases h with e | e | ⟨e, free⟩ <;> rw [e]
  exact if_neg free

theorem leaveStep_refused (h : s.station = .offline ∨ s.station = .running) : leaveStep s = setResultOpen .refusedState s := by
  unfold leaveStep
  rcases h with e | e <;> rw [e]

theorem leaveStep_held (h : s.station = .joined) (held : heldByElectorate s = true) : leaveStep s = setResultOpen .busy s := by
  unfold leaveStep; rw [h]; exact if_pos held

end

/-- Settles O20: the rows of R86. -/
theorem leaveWithdrawsOrRefuses : Obligations.LeaveWithdrawsOrRefuses := by
  intro s hp held
  rw [exec_leave hp, issue_eq]
  have held_iff : heldByElectorate (withCommand 0x02 s) = true ↔ held := heldByElectorate_iff s
  refine ⟨fun h => ⟨_, rfl, ?_⟩, fun h => ⟨_, rfl, ?_⟩, fun hj hh => ⟨_, rfl, ?_⟩⟩
  · rw [leaveStep_withdraws (s := withCommand 0x02 s) (by rw [held_iff]; exact h)]
    exact withdrawn_answered .leave 0x02 .done s
  · rw [leaveStep_refused (s := withCommand 0x02 s) h]; exact ⟨rfl, rfl⟩
  · rw [leaveStep_held (s := withCommand 0x02 s) hj (held_iff.2 hh)]; exact ⟨rfl, rfl⟩

/-- Settles O21: RESTART asks nothing of the station state. -/
theorem restartWithdrawsFromEveryState : Obligations.RestartWithdrawsFromEveryState :=
  fun s hp => ⟨_, exec_restart hp, withdrawn_answered .restart 0x03 .done s⟩

end Sys2Proof.Machine
end

section
/-! The entries into JOINED: the lone start (O23), and the marks of an acquisition (O40). -/

namespace Sys2Proof.Machine

/-! ## Lone start (R84, R133) -/

theorem exec_loneStart {s : State} (h : s.pins.rstn = true) : exec .loneStart s = .next (loneStep s) := whilePowered_on _ h

/-- Settles O23: the entry, and the trip line judged in the state it leaves. -/
theorem loneStartEntersJoined : Obligations.LoneStartEntersJoined := by
  intro s hp joined row
  rw [exec_loneStart hp]
  have enters (hs : s.station = .listening) (hk : s.acq.phase = .seek) : loneStep s = raiseTripLine joined := if_pos ⟨hs, hk⟩
  refine ⟨fun hs hk h => ?_, fun hs hk low hr => ?_, fun hs hk low hr => ⟨_, rfl, ?_⟩, fun h => ?_⟩
  · rw [enters hs hk, raiseTripLine_idle (s := joined) h]
  · rw [enters hs hk, raiseTripLine_reports (s := joined) rfl low hr]; rfl
  · rw [enters hs hk]; exact raiseTripLine_trips (s := joined) rfl low hr
  · rw [loneStep, if_neg (not_and_or.2 h)]

/-! ## A mark of an acquisition (R81, R82) -/

theorem exec_acquisitionMark {s : State} (start : Nat) (hp : s.pins.rstn = true) (hs : s.station = .listening) :
    exec (.markAccepted start) s = .next (acquisitionMark start s) := by
  have mark : runKind s start = .mark := by unfold runKind; rw [hs]
  rw [exec_markAccepted start hp, runStep, if_neg (by simp [hs]), mark]
  simp only [onLink_of_listening hs]; rfl

/-- A station whose cycle a mark of its acquisition has restarted: the timer, the windows and the mismatch flag (R6, R35). -/
def restarted (s : State) : State :=
  { markRestart s with roster := { (markRestart s).roster with mismatch := false } }

/-- A withdrawal reads nothing of what a mark restarts, and nothing of the acquisition record (R89). -/
theorem withdrawn_restarted (reason : LinkMismatchReason) (a : Acquisition) {s : State} (hs : s.station = .listening) :
    Withdrawn .linkMismatch [reportOf (.linkMismatch reason 0 .listening) s.number s] s
      (mismatchWithdraw reason 0 { restarted s with acq := a }) := by
  have w := withdrawn_mismatchWithdraw reason 0 { restarted s with acq := a }
  rw [← hs]
  exact ⟨w.station, w.link, w.roster, w.change, w.outputs, w.trip, w.tables, w.registers, w.reports, w.kept, w.now, w.released⟩

/-- The lock range (R81). -/
theorem inLockRange_iff (s : State) (n : Nat) :
    inLockRange s n = true ↔ cycleLength s - cycleLength s / 64 ≤ n ∧ n ≤ cycleLength s + 2 := by
  simp [inLockRange, shortLimit]

section
variable {n : Nat} {s : State}

theorem acquisitionMark_seek (hk : s.acq.phase = .seek) :
    acquisitionMark n s = { restarted s with acq := { s.acq with phase := .locking } } := by
  unfold acquisitionMark; dsimp only [markRestart_acq]; rw [hk]; rfl

theorem acquisitionMark_locks (hk : s.acq.phase = .locking) (hn : inLockRange s n = true) :
    acquisitionMark n s = { restarted s with acq := { s.acq with phase := .listen, listening := 1 } } := by
  unfold acquisitionMark; dsimp only [markRestart_acq]; rw [hk]; exact if_pos hn

theorem acquisitionMark_listens (hk : s.acq.phase = .listen) (hn : inLockRange s n = true) :
    acquisitionMark n s = listenMark (restarted s) := by
  unfold acquisitionMark; dsimp only [markRestart_acq]; rw [hk]; exact if_pos hn

theorem acquisitionMark_fails (hk : s.acq.phase ≠ .seek) (hn : ¬inLockRange s n = true) :
    acquisitionMark n s = failedLock (restarted s) := by
  unfold acquisitionMark; dsimp only [markRestart_acq]
  cases e : s.acq.phase with
  | seek => exact absurd e hk
  | locking => exact if_neg hn
  | listen => exact if_neg hn

/-! ## The end of a lock attempt and of a listening cycle -/

theorem failedLock_again (h : s.acq.failedLocks < 2) : failedLock s = { s with
    acq := { s.acq with phase := .locking, failedLocks := s.acq.failedLocks + 1, listening := 0, taken := none } } :=
  if_neg (by omega)

theorem failedLock_third (h : 2 ≤ s.acq.failedLocks) : failedLock s =
    mismatchWithdraw .lockFailed 0 { s with acq := { s.acq with failedLocks := s.acq.failedLocks + 1 } } :=
  if_pos (by omega)

theorem listenMark_first (h : s.acq.listening ≤ 1) : listenMark s = { s with acq := { s.acq with listening := 2 } } := if_pos h

theorem listenMark_unnumbered (hv : s.acq.taken = none) (h4 : 4 ≤ s.acq.listening) :
    listenMark s = mismatchWithdraw .noNumber 0 s := by
  unfold listenMark; rw [if_neg (by omega), hv]; exact if_neg (by omega)

variable (h : 2 ≤ s.acq.listening)
include h

theorem listenMark_taken {v : CycleNo} (hv : s.acq.taken = some v) : listenMark s = acquired v s := by
  unfold listenMark; rw [if_neg (by omega), hv]

theorem listenMark_waits (hv : s.acq.taken = none) (h4 : s.acq.listening < 4) :
    listenMark s = { s with acq := { s.acq with listening := s.acq.listening + 1 } } := by
  unfold listenMark; rw [if_neg (by omega), hv]; exact if_pos h4

end

/-- The PRESENT entries as JOINED_LINK counts them (R83). -/
theorem presentCount_eq (s : State) :
    presentCount s = (List.finRange 16).countP fun k => s.roster.entries[k].presence == .present := by
  rw [presentCount, ← List.countP_eq_length_filter, stations_eq]; rfl

/-! ## The claim of such a mark in OFFLINE (R77, R90) -/

theorem acquisitionReason_third {n : Nat} {s : State} (hk : s.acq.phase ≠ .seek) (hf : 2 ≤ s.acq.failedLocks)
    (hn : ¬inLockRange s n = true) : acquisitionReason n s = some .lockFailed := by
  rw [acquisitionReason, if_neg hk, if_neg hn, if_pos (Nat.succ_le_succ hf)]

theorem acquisitionReason_unnumbered {n : Nat} {s : State} (hk : s.acq.phase = .listen) (ht : s.acq.taken = none)
    (h4 : 4 ≤ s.acq.listening) (hn : inLockRange s n = true) : acquisitionReason n s = some .noNumber := by
  rw [acquisitionReason, if_neg (by simp [hk]), if_pos hn, if_pos ⟨hk, ht, h4⟩]

/-- The report that a mark leaves in OFFLINE of the acquisition its tick has ended. -/
theorem exec_discardedMark {start : Nat} {b : Leaving} {s : State} {r : LinkMismatchReason} (hp : s.pins.rstn = true)
    (ho : s.station = .offline) (hb : s.now.left = some b) (hl : b.station = .listening)
    (hr : acquisitionReason start (beforeLeaving b s) = some r) :
    exec (.markAccepted start) s = .next (postSelf (.linkMismatch r 0 .offline) s) := by
  have mark : runKind (beforeLeaving b s) start = .mark := by unfold runKind; dsimp only [beforeLeaving_station]; rw [hl]
  have claim : markClaim start (beforeLeaving b s) = some (.linkMismatch r 0 .offline) := by
    unfold markClaim; rw [mark]
    simp only [onLink_of_listening (s := beforeLeaving b s) hl, hr]; rfl
  rw [exec_markAccepted start hp, runStep, if_pos ho, discardedClaim_some hb claim]

/-- Settles O40: the phases of the acquisition, each with the outcomes of its mark, and the claims in the tick of a withdrawal. -/
theorem acquisitionAdvancesByMarks : Obligations.AcquisitionAdvancesByMarks := by
  constructor
  · intro start s hp hs inRange c
    have range : inLockRange s start = true ↔ inRange := inLockRange_iff s start
    rw [show exec c s = .next (acquisitionMark start s) from exec_acquisitionMark start hp hs]
    refine ⟨fun hk => ⟨_, rfl, ?_⟩, fun hk hn => ⟨_, rfl, ?_⟩, fun hk hn hf => ⟨_, rfl, ?_⟩, fun hk hn hf => ⟨_, rfl, ?_⟩,
      fun hk hn h1 => ⟨_, rfl, ?_⟩, fun hk hn h2 h3 ht => ⟨_, rfl, ?_⟩, fun hk hn h4 ht => ⟨_, rfl, ?_⟩,
      ?_⟩
    · rw [acquisitionMark_seek hk]; exact ⟨hs, rfl, rfl, rfl⟩
    · rw [acquisitionMark_locks hk (range.2 hn)]; exact ⟨hs, rfl, rfl, rfl⟩
    · rw [acquisitionMark_fails hk (mt range.1 hn), failedLock_again (s := restarted s) hf]; exact ⟨hs, rfl, rfl, rfl, rfl⟩
    · rw [acquisitionMark_fails hk (mt range.1 hn), failedLock_third (s := restarted s) hf]
      exact withdrawn_restarted .lockFailed _ hs
    · rw [acquisitionMark_listens hk (range.2 hn), listenMark_first (s := restarted s) h1.le]; exact ⟨hs, rfl⟩
    · rw [acquisitionMark_listens hk (range.2 hn), listenMark_waits (s := restarted s) h2 ht (Nat.lt_succ_of_le h3)]
      exact ⟨hs, rfl⟩
    · rw [acquisitionMark_listens hk (range.2 hn), listenMark_unnumbered (s := restarted s) ht h4.ge]
      exact withdrawn_restarted .noNumber s.acq hs
    · intro v hk hn h2 ht joined row
      have enters : acquisitionMark start s = raiseTripLine joined := by
        rw [acquisitionMark_listens hk (range.2 hn), listenMark_taken (s := restarted s) h2 ht, acquired, presentCount_eq]; rfl
      rw [enters]
      refine ⟨fun h => ?_, fun low hr => ?_, fun low hr => ⟨_, rfl, raiseTripLine_trips (s := joined) rfl low hr⟩⟩
      · rw [raiseTripLine_idle (s := joined) h]
      · rw [raiseTripLine_reports (s := joined) rfl low hr]; rfl
  · intro start b s hp ho hb hl was inRange
    have range : inLockRange (beforeLeaving b s) start = true ↔ inRange := inLockRange_iff (beforeLeaving b s) start
    exact ⟨fun hk hf hn => exec_discardedMark hp ho hb hl (acquisitionReason_third hk hf (mt range.1 hn)),
      fun hk ht h4 hn => exec_discardedMark hp ho hb hl (acquisitionReason_unnumbered hk ht h4 (range.2 hn))⟩

end Sys2Proof.Machine
end

section
/-! The filtered level of a fault input (O27). -/

namespace Sys2Proof.Machine

theorem exec_faultLevel (i : Fin 4) {s : State} (h : s.pins.rstn = true) :
    exec (.filteredLevelChange (.flt i)) s = .next (faultLevelStep i s) := whilePowered_on _ h

/-- The filtered level of a fault input turned over (R132). -/
def faultTurned (i : Fin 4) (s : State) : State := setFaultFilter i (flipFilter s.trip.faults[i]) s

/-- The run of an input has reached 4f + 1 ticks (R132). -/
theorem filterRipe_iff (s : State) (f : Filter) : filterRipe s f = true ↔ filterTicks s ≤ f.run := decide_eq_true_iff

/-! ## The step by the filter and the station state (R85, R90, R132, R133) -/

section
variable {i : Fin 4} {s : State}

theorem faultLevelStep_short (h : s.trip.faults[i].run < filterTicks s) : faultLevelStep i s = s :=
  if_neg (mt (filterRipe_iff s _).1 (not_le.2 h))

variable (ripe : filterTicks s ≤ s.trip.faults[i].run)
include ripe

theorem faultLevelStep_deasserts (h : s.trip.faults[i].asserted = true) : faultLevelStep i s = faultTurned i s := by
  unfold faultLevelStep; rw [if_pos ((filterRipe_iff s _).2 ripe)]
  exact if_neg (Bool.eq_false_iff.1 (congrArg (!·) h))

variable (rises : s.trip.faults[i].asserted = false)
include rises

/-- A level that becomes asserted: in OFFLINE it can be a claim of the tick of a withdrawal (R90); during an acquisition, and in the
tick that has ended one with the entry into JOINED, Station Control takes it (R85, R90); on the link, but for that tick, the Trip Unit
takes its cause (R133). -/
theorem faultLevelStep_rises :
    (s.station = .offline → faultLevelStep i s = discardedClaim (faultClaim i) (faultTurned i s)) ∧
    (s.station = .listening ∨ s.station ≠ .offline ∧ s.now.arrived = true →
      faultLevelStep i s = acquisitionFault i (faultTurned i s)) ∧
    (onLink s = true → s.now.arrived = false → faultLevelStep i s = takeOwnCause (.fault i) (faultTurned i s)) := by
  have high : (flipFilter s.trip.faults[i]).asserted = true := congrArg (!·) rises
  unfold faultLevelStep; dsimp only
  rw [if_pos ((filterRipe_iff s _).2 ripe), if_pos high, setFaultFilter_station]
  refine ⟨fun hs => by rw [hs]; rfl, fun hs => ?_, fun hs earlier => ?_⟩
  · rcases hs with hs | ⟨awake, arrived⟩
    · rw [hs]; rfl
    · cases e : s.station with
      | offline => exact absurd e awake
      | listening => rfl
      | joined | running | tripped => exact if_pos arrived
  · rcases (onLink_iff s).1 hs with e | e | e <;> rw [e] <;> exact if_neg (Bool.eq_false_iff.1 earlier)

end

/-! ## The fault by its row (R85, R133, R135) -/

theorem evaluated_fault (i : Fin 4) {s : State} (h : onLink s = true) : evaluated (.fault i) s.station = true := by
  rcases (onLink_iff s).1 h with e | e | e <;> rw [e] <;> rfl

theorem acquisitionFault_passive {i : Fin 4} {s : State}
    (hr : (rowOf s.tables (.fault i)).action = .ignore ∨ (rowOf s.tables (.fault i)).action = .respace) :
    acquisitionFault i s = s := by
  unfold acquisitionFault
  rcases hr with e | e <;> rw [e]

theorem acquisitionFault_reports {i : Fin 4} {s : State} (hr : (rowOf s.tables (.fault i)).action = .report) :
    acquisitionFault i s = postSelf (.causeSeen (.fault i) s.station none) s := by
  unfold acquisitionFault; rw [hr]

/-- Under a TRIP row the fault ends the acquisition (R85, R88). -/
theorem withdrawn_acquisitionFault {i : Fin 4} {s : State} (hr : (rowOf s.tables (.fault i)).action = .trip) :
    Withdrawn .joinAborted [reportOf (.joinAborted i) s.number s] s (acquisitionFault i s) := by
  unfold acquisitionFault; rw [hr]; exact withdrawn_withdraw _ _ s

/-- A station outside OFFLINE is acquiring, or on the link with no acquisition ended in this tick. -/
theorem acquiring_or_onLink {s : State} (h : s.station ≠ .offline) :
    (s.station = .listening ∨ s.station ≠ .offline ∧ s.now.arrived = true) ∨ onLink s = true ∧ s.now.arrived = false := by
  cases arrived : s.now.arrived with
  | true => exact .inl (.inr ⟨h, rfl⟩)
  | false =>
    cases e : s.station with
    | offline => exact absurd e h
    | listening => exact .inl (.inl rfl)
    | joined | running | tripped => exact .inr ⟨(onLink_iff s).2 (by simp [e]), rfl⟩

section
variable {i : Fin 4} {s : State} (ripe : filterTicks s ≤ s.trip.faults[i].run) (rises : s.trip.faults[i].asserted = false)
include ripe rises

theorem faultLevelStep_passive (hs : s.station ≠ .offline)
    (hr : (rowOf s.tables (.fault i)).action = .ignore ∨ (rowOf s.tables (.fault i)).action = .respace) :
    faultLevelStep i s = faultTurned i s := by
  obtain ⟨-, acquisition, cause⟩ := faultLevelStep_rises ripe rises
  rcases acquiring_or_onLink hs with acquiring | ⟨link, earlier⟩
  · rw [acquisition acquiring]; exact acquisitionFault_passive hr
  · rw [cause link earlier]; exact takeCause_idle _ _ _ (actsOn_of_passive hr)

theorem faultLevelStep_reports (hs : s.station ≠ .offline) (hr : (rowOf s.tables (.fault i)).action = .report) :
    faultLevelStep i s = postSelf (.causeSeen (.fault i) s.station none) (faultTurned i s) := by
  obtain ⟨-, acquisition, cause⟩ := faultLevelStep_rises ripe rises
  rcases acquiring_or_onLink hs with acquiring | ⟨link, earlier⟩
  · rw [acquisition acquiring]; exact acquisitionFault_reports hr
  · rw [cause link earlier]; exact takeCause_of_report _ _ (evaluated_fault i link) hr

theorem faultLevelStep_trips (hs : s.station = .joined ∨ s.station = .running) (earlier : s.now.arrived = false)
    (hr : (rowOf s.tables (.fault i)).action = .trip) : faultLevelStep i s =
      tripEntry (.fault i) (rowOf s.tables (.fault i)).drive s.number none (faultTurned i s) := by
  have link : onLink s = true := (onLink_iff s).2 (hs.imp_right .inl)
  obtain ⟨-, -, cause⟩ := faultLevelStep_rises ripe rises
  rw [cause link earlier]
  exact (takeCause_of_trip (s := faultTurned i s) _ _ (evaluated_fault i link) hr).trans (tripClaim_inGroup _ _ _ _ hs)

theorem faultLevelStep_adds (hs : s.station = .tripped) (earlier : s.now.arrived = false)
    (hr : (rowOf s.tables (.fault i)).action = .trip) :
    faultLevelStep i s = addCause (.fault i) s.number none (faultTurned i s) := by
  have link : onLink s = true := (onLink_iff s).2 (.inr (.inr hs))
  obtain ⟨-, -, cause⟩ := faultLevelStep_rises ripe rises
  rw [cause link earlier]
  exact (takeCause_of_trip (s := faultTurned i s) _ _ (evaluated_fault i link) hr).trans (tripClaim_tripped _ _ _ _ hs)

end

/-! ## A fault added to the cause set (R138, R145) -/

theorem addCause_held {c : Cause} {s : State} (x : StationNo) (k : Option MismatchKind) (h : hasCause c s.trip.causes = true) :
    addCause c x k s = s := if_pos h

/-- State `t` is what the addition of a fault input leaves of the TRIPPED state `s`; a CLEAR in its settle ends refused (R138, R145). -/
structure FaultAdded (i : Fin 4) (s t : State) : Prop where
  station : t.station = s.station
  pins : t.pins = s.pins
  trip : t.trip.causes = s.trip.causes ||| causeBit (.fault i) ∧
    t.trip.drive = (s.trip.drive || (rowOf s.tables (.fault i)).drive)
  record : t.trip.first = s.trip.first ∧ t.trip.entry = s.trip.entry
  settled : t.trip.settling = false
  ended : s.trip.settling = true → t.host.result = .refusedActive ∧ t.host.detail = natByte i.val
  reports : t.host.reports = arrive s.host.reports
    (reportOf (.tripAdded (.fault i) (s.trip.drive || (rowOf s.tables (.fault i)).drive) none) s.number s)

theorem faultAdded_addCause {i : Fin 4} {s : State} (new : hasCause (.fault i) s.trip.causes = false) :
    FaultAdded i s (addCause (.fault i) s.number none s) := by
  cases settling : s.trip.settling with
  | false =>
    rw [addCause_eq _ _ _ _ new (.inl settling)]
    exact ⟨rfl, rfl, ⟨rfl, rfl⟩, ⟨rfl, rfl⟩, settling, fun h => (by rw [settling] at h; cases h), rfl⟩
  | true =>
    unfold addCause; rw [if_neg (by simp [new])]
    dsimp only [endClearOnFault]; rw [if_pos (by exact settling)]
    exact ⟨rfl, rfl, ⟨rfl, rfl⟩, ⟨rfl, rfl⟩, rfl, fun _ => ⟨rfl, rfl⟩, rfl⟩

/-- In TRIPPED the drive flag of the trip record pulls TRPn low (R140). -/
theorem trpnDriven_tripped {s : State} (hp : s.pins.rstn = true) (hs : s.station = .tripped) :
    trpnDriven s = true ↔ s.trip.drive = true := by
  simp [trpnDriven, hp, hs]

/-! ## The claim of the tick of a withdrawal (R77, R90) -/

theorem faultClaim_eq (i : Fin 4) (b : Leaving) (s : State) : faultClaim i (beforeLeaving b s) =
    if (b.station = .listening ∨ s.now.arrived = true) ∧ (rowOf b.tables (.fault i)).action = .trip then some (.joinAborted i)
    else none := rfl

theorem discardedClaim_unmade {s : State} {claim : State → Option ReportBody}
    (h : ∀ b, s.now.left = some b → claim (beforeLeaving b s) = none) : discardedClaim claim s = s := by
  unfold discardedClaim
  cases e : s.now.left with
  | none => rfl
  | some b => dsimp only; rw [h b e]

/-- Settles O27: the level turns over, and its rise is taken by the row and the station state. -/
theorem faultLevelChange : Obligations.FaultLevelChange := by
  intro i s hp length before row turned c acquiring earlier
  rw [show exec c s = .next (faultLevelStep i s) from exec_faultLevel i hp]
  refine ⟨fun short => congrArg _ (faultLevelStep_short short), fun ripe => ⟨fun h => congrArg _ ?_,
    fun rises hs claims => congrArg _ ?_, fun rises hr hs => congrArg _ ?_, fun rises hr early hs => ⟨_, rfl, ?_⟩,
    fun rises hr early hs held => congrArg _ ?_, fun rises hr early hs new => ⟨_, rfl, ?_⟩, fun rises hr hs => ⟨_, rfl, ?_⟩⟩⟩
  · cases rises : s.trip.faults[i].asserted with
    | true => exact faultLevelStep_deasserts ripe rises
    | false =>
      rcases h with falls | ⟨hs, hr⟩ | ⟨hs, unmade⟩
      · exact absurd (rises.symm.trans falls) nofun
      · exact faultLevelStep_passive ripe rises hs hr
      · obtain ⟨claim, -⟩ := faultLevelStep_rises ripe rises
        rw [claim hs]
        refine discardedClaim_unmade fun b hb => ?_
        rw [faultClaim_eq]; exact if_neg fun ⟨was, hr⟩ => unmade ⟨b, hb, was, hr⟩
  · obtain ⟨b, hb, was, hr⟩ := claims
    obtain ⟨claim, -⟩ := faultLevelStep_rises ripe rises
    rw [claim hs]
    exact discardedClaim_some (b := b) hb (by rw [faultClaim_eq]; exact if_pos ⟨was, hr⟩)
  · exact faultLevelStep_reports ripe rises hs hr
  · rw [faultLevelStep_trips ripe rises hs early hr]
    have entry := trippedBy_tripEntry (.fault i) row.drive s.number none turned
    exact ⟨entry, (entry.line hp).2, by rw [tripEntry_eq]; rfl⟩
  · rw [faultLevelStep_adds ripe rises hs early hr]; exact addCause_held _ _ held
  · rw [faultLevelStep_adds ripe rises hs early hr]
    obtain ⟨station, pins, ⟨causes, drive⟩, ⟨first, entry⟩, settled, ended, reports⟩ :=
      faultAdded_addCause (s := turned) (i := i) new
    have tripped := station.trans hs
    have powered := (congrArg Pins.rstn pins).trans hp
    exact ⟨tripped, causes, drive, trpnDriven_tripped powered tripped, first, entry, settled, ended, reports⟩
  · obtain ⟨-, acquisition, -⟩ := faultLevelStep_rises ripe rises
    rw [acquisition (hs.imp_right (.imp_right Bool.eq_true_of_not_eq_false))]
    exact withdrawn_acquisitionFault (s := turned) hr

end Sys2Proof.Machine
end

section
/-! O6. Every step keeps the law of the outputs (R93, R99, R112, R116). -/

namespace Sys2Proof.Machine

/-! ## What keeps the law -/

/-- Outside RUNNING, with the Gate Stage forced off and the carrier stopped, the law holds (R93, R116). -/
theorem outputLaw_forcedOff {s : State} (station : s.station ≠ .running) (gate : s.gate = Gate.off)
    (carrier : s.carrier = Carrier.stopped) : OutputLaw s where
  legs leg := by rw [gate, get_gate_off]; exact legSafe_off
  off _ := ⟨gate, carrier⟩
  runs h := absurd h station

/-- In RUNNING the law asks for safe legs and a running carrier (R93, R112). -/
theorem outputLaw_running {s : State} (station : s.station = .running) (carrier : s.carrier.running = true)
    (legs : ∀ leg, legSafe (s.gate.legs.get leg)) : OutputLaw s where
  legs := legs
  off h := absurd station h
  runs _ := carrier

section
variable {s t : State} (h : OutputLaw s)
include h

/-- An update of nothing that the law reads. -/
theorem OutputLaw.congr (station : t.station = s.station) (gate : t.gate = s.gate) (carrier : t.carrier = s.carrier) :
    OutputLaw t := by
  obtain ⟨legs, off, runs⟩ := h
  constructor <;> simp only [station, gate, carrier] <;> assumption

/-- A station moves between states other than RUNNING, and its outputs stay off. -/
theorem OutputLaw.moves (before : s.station ≠ .running) (after : t.station ≠ .running) (gate : t.gate = s.gate)
    (carrier : t.carrier = s.carrier) : OutputLaw t :=
  outputLaw_forcedOff after (gate.trans (h.off before).1) (carrier.trans (h.off before).2)

/-- The carrier runs in RUNNING alone (R93). -/
theorem OutputLaw.running_of_carrier (runs : s.carrier.running = true) : s.station = .running := by
  by_contra away
  rw [(h.off away).2] at runs; cases runs

/-- A step of the dead-time counts (R112): outside RUNNING nothing waits, and no count moves. -/
theorem OutputLaw.counted : OutputLaw (tickGates s).1 := by
  by_cases running : s.station = .running
  · refine outputLaw_running running (h.runs running) fun leg => ?_
    show legSafe ((s.gate.legs.map countStep).get leg)
    rw [get_map]; exact legSafe_countStep (h.legs leg)
  · obtain ⟨gate, carrier⟩ := h.off running
    refine outputLaw_forcedOff running ?_ carrier
    show { s.gate with legs := s.gate.legs.map countStep } = Gate.off
    rw [gate]; rfl

/-- The set-this-tick mark is over (R93); a stopped carrier bears none. -/
theorem OutputLaw.unmarked : OutputLaw { s with carrier := { s.carrier with setThisTick := false } } := by
  by_cases running : s.station = .running
  · exact outputLaw_running running (h.runs running) h.legs
  · obtain ⟨gate, carrier⟩ := h.off running
    exact outputLaw_forcedOff running gate (congrArg (fun c : Carrier => { c with setThisTick := false }) carrier)

end

/-! ## Every elementary update -/

theorem kept_outputLaw : Kept OutputLaw where
  host _ _ h _ := h.congr rfl rfl rfl
  free _ _ h := h.congr rfl rfl rfl
  pins _ _ h := h.congr rfl rfl rfl
  pending _ _ h := h.congr rfl rfl rfl
  now _ _ h := h.congr rfl rfl rfl
  wires _ _ _ h := h.congr rfl rfl rfl
  trip _ _ h _ _ _ _ _ := h.congr rfl rfl rfl
  settle _ h _ := h.congr rfl rfl rfl
  added _ _ _ h _ := h.congr rfl rfl rfl
  cleared _ h ht := h.moves (by simp [ht]) (by simp) rfl rfl
  tripped _ _ _ _ _ _ _ := by
    rw [tripEntry_eq]; exact outputLaw_forcedOff (by simp) rfl rfl
  withdrawn _ _ := outputLaw_forcedOff (by simp [withdrawalResets]) rfl rfl
  joined _ _ _ h hs := h.moves (by simp [hs]) (by simp [enterJoined]) rfl rfl
  vacated _ h := h.congr rfl rfl rfl
  drop _ h _ := h.congr rfl rfl rfl
  proposed _ _ _ h _ _ _ _ := h.congr rfl rfl rfl
  adopted _ _ _ h _ _ _ _ _ := h.congr rfl rfl rfl
  sent _ _ _ h _ _ := h.congr rfl rfl rfl
  counted _ _ h _ := h.congr rfl rfl rfl
  judged _ h := h.congr rfl rfl rfl
  collect _ _ h _ _ _ := h.congr rfl rfl rfl
  emptied _ h := h.congr rfl rfl rfl
  discord _ _ h _ := h.congr rfl rfl rfl
  hold _ _ h _ := h.congr rfl rfl rfl
  pair _ _ h _ _ _ _ := h.congr rfl rfl rfl
  entry _ _ _ h _ _ _ := h.congr rfl rfl rfl
  judgeLost _ _ h _ := h.congr rfl rfl rfl
  mismatch _ _ h _ := h.congr rfl rfl rfl
  advance _ _ h before after := outputLaw_running (h.running_of_carrier before) after h.legs
  unmarked _ h := h.unmarked
  gates _ _ h hr safe := outputLaw_running hr (h.runs hr) (safe h.legs)
  counts _ h := h.counted
  load s h _ := by
    obtain ⟨_, -, e⟩ := load_eq s
    rw [e]; exact h.congr rfl rfl rfl
  queue _ _ h _ := h.congr rfl rfl rfl

/-! ## The four updates of their own -/

/-- An application judges every leg, and a wait that it ends turns on one gate of a leg that has none on (R112, R115). -/
theorem legSafe_gateApply {s : State} (hs : s.station = .running) (leg : Leg) :
    legSafe ((gateApply s).gate.legs.get leg) := by
  rw [get_gateApply hs]; exact legSafe_ripen _ (legSafe_judgeLeg _ _)

/-- The claim of an application starts the carrier of a member of the new set, and leaves any other station forced off (R64). -/
theorem outputLaw_applyClaim {c : Slot} {s : State} (h : OutputLaw s) (hg : inGroup s = true) :
    OutputLaw (applyClaim c s).1 := by
  cases hm : member s.number c.newSet with
  | true =>
    obtain ⟨_, -, _, _, claimed, -⟩ := applyClaim_running c s hm
    refine outputLaw_running (by rw [claimed]) (by rw [claimed]; rfl) fun leg => ?_
    obtain ⟨_, -, loaded⟩ := load_eq (claiming c s)
    rw [applyClaim_applier hm]
    exact legSafe_gateApply (by rw [loaded]; rfl) leg
  | false =>
    obtain ⟨_, claimed⟩ := applyClaim_joined c s hm (state_of_inGroup hg) fun hj => (h.off (by simp [hj])).symm
    rw [claimed]; exact outputLaw_forcedOff (by simp) rfl rfl

theorem keptByApply_outputLaw : KeptByApply OutputLaw := fun _ h hg _ =>
  (outputLaw_applyClaim h hg).congr rfl rfl rfl

/-- A TWRITE writes tables, filters and RESULT, and no output (R168). -/
theorem outputs_twriteStep (s : State) :
    (twriteStep s).station = s.station ∧ (twriteStep s).gate = s.gate ∧ (twriteStep s).carrier = s.carrier := by
  unfold twriteStep writeEntry refuseIndex; dsimp only
  repeat' split
  all_goals exact ⟨rfl, rfl, rfl⟩

theorem outputLaw_step {s t : State} (h : OutputLaw s) (hs : step s = .next t) : OutputLaw t := by
  have K := kept_outputLaw
  unfold step at hs
  split at hs
  · injection hs with hs
    rw [← hs]; exact K.idle h
  · rename_i c rest _
    refine K.exec (s := { s with pending := rest }) (K.pending _ _ h) hs ?_
      (fun _ _ hu ho _ => hu.moves (by simp [ho]) (by simp [enterListening]) rfl rfl)
      (fun _ u hu => ?_) fun _ => keptByApply_outputLaw
    · rintro ids rfl
      injection hs with hs
      rw [← hs]; exact outputLaw_forcedOff (by simp [State.powerOn]) rfl rfl
    · obtain ⟨station, gate, carrier⟩ := outputs_twriteStep u
      exact hu.congr station gate carrier

/-- Settles O6: every elementary update keeps the law, and an application leaves safe legs or forces them off. -/
theorem stepKeepsOutputLaw : Obligations.StepKeepsOutputLaw := fun _ _ => outputLaw_step

end Sys2Proof.Machine
end

section
/-! O34. The carrier over a period, and the spacing of the phase offsets (R94, R95, R96). -/

namespace Sys2Proof.Machine

/-! ## Sizes and ranks as cardinalities (00, Station numbers, sets and ranks) -/

theorem nodup_members (set : StationSet) : (members set).Nodup := nodup_stations.filter _

/-- The size of a set is the number of its members. -/
theorem size_eq_card (set : StationSet) : size set = (Finset.univ.filter fun k => member k set = true).card := by
  rw [size, ← List.toFinset_card_of_nodup (nodup_members set)]
  congr 1; ext k; simp

/-- The rank of a station is the number of members below it. -/
theorem rank_eq_card (k : StationNo) (set : StationSet) :
    rank k set = (Finset.univ.filter fun j => member j set = true ∧ j < k).card := by
  rw [rank, ← List.toFinset_card_of_nodup ((nodup_members set).filter _)]
  congr 1; ext j; simp

/-- The size of a set is the number of its bits that are set. -/
theorem size_eq_countP (set : StationSet) : size set = (List.range 16).countP (fun i => set.getLsbD i) := by
  rw [size, members, stations_eq, ← List.countP_eq_length_filter, ← List.map_coe_finRange_eq_range, List.countP_map]
  rfl

section
variable {j k : StationNo} {set : StationSet}

/-- A member is itself not below itself. -/
theorem rank_lt_size (hk : member k set = true) : rank k set < size set := by
  rw [rank_eq_card, size_eq_card]
  refine Finset.card_lt_card (Finset.ssubset_iff_subset_ne.2 ⟨fun i hi => ?_, fun same => ?_⟩)
  · simp only [Finset.mem_filter] at hi ⊢; exact ⟨hi.1, hi.2.1⟩
  · have : k ∈ Finset.univ.filter fun i => member i set = true := by simpa using hk
    rw [← same] at this
    simp at this

theorem rank_lowest (low : ∀ i : StationNo, member i set = true → k ≤ i) : rank k set = 0 := by
  rw [rank_eq_card, Finset.card_eq_zero, Finset.filter_eq_empty_iff]
  exact fun i _ ⟨hi, below⟩ => absurd (low i hi) (not_le.2 below)

/-- Between two neighbouring members only the lower one counts. -/
theorem rank_next (hj : member j set = true) (lt : j < k)
    (between : ∀ i : StationNo, j < i → i < k → member i set = false) : rank k set = rank j set + 1 := by
  have below : (Finset.univ.filter fun i => member i set = true ∧ i < k) =
      insert j (Finset.univ.filter fun i => member i set = true ∧ i < j) := by
    ext i
    simp only [Finset.mem_filter, Finset.mem_univ, true_and, Finset.mem_insert]
    constructor
    · rintro ⟨hi, ik⟩
      rcases lt_trichotomy i j with ij | ij | ij
      · exact .inr ⟨hi, ij⟩
      · exact .inl ij
      · rw [between i ij ik] at hi; cases hi
    · rintro (rfl | ⟨hi, ij⟩)
      · exact ⟨hj, lt⟩
      · exact ⟨hi, ij.trans lt⟩
  rw [rank_eq_card, rank_eq_card, below, Finset.card_insert_of_notMem (by simp)]

end

/-! ## Phase offsets (R96) -/

theorem phaseOffset_interleaved {p : Profile} (h : p.interleave = true) (period : Nat) (k : StationNo) (view : StationSet) :
    phaseOffset p period k view = rank k view * period / size view := if_pos h

theorem phaseOffset_aligned {p : Profile} (h : p.interleave = false) (period : Nat) (k : StationNo) (view : StationSet) :
    phaseOffset p period k view = 0 := if_neg (by simp [h])

/-- The offset of the last rank leaves one step of the interleave to the end of the period. -/
theorem rank_offset_le {rank size : Nat} (h : rank < size) (period : Nat) :
    rank * period / size ≤ period - period / size := by
  have room : rank * period / size + period / size ≤ period :=
    calc rank * period / size + period / size
        ≤ (rank * period + period) / size := Nat.div_add_div_le_add_div ..
      _ = (rank + 1) * period / size := by rw [Nat.succ_mul]
      _ ≤ size * period / size := Nat.div_le_div_right (Nat.mul_le_mul_right _ h)
      _ = period := Nat.mul_div_cancel_left _ (by omega)
  omega

/-- The next rank's offset is one step on, rounded down or up. -/
theorem rank_offset_succ {size : Nat} (h : 0 < size) (rank period : Nat) :
    (rank + 1) * period / size = rank * period / size + period / size ∨
      (rank + 1) * period / size = rank * period / size + period / size + 1 := by
  rw [Nat.succ_mul, Nat.add_div h]
  split
  · exact .inr rfl
  · exact .inl rfl

/-- Settles O34: the values by the two halves of the period, and the offsets by the ranks. -/
theorem carrierValuesAndOffsets : Obligations.CarrierValuesAndOffsets := by
  constructor
  · intro period x even inside
    unfold carrierValue nextPosition; dsimp only
    refine ⟨?_, fun k hk hx => ?_, fun hx => if_pos hx, rfl, ?_, fun hx => if_neg (by omega), fun hx => if_pos hx⟩
    · split <;> omega
    · rw [if_pos (Nat.sub_le _ _)]; split <;> omega
    · split <;> omega
  · intro l p view period n
    have size_eq : size view = n := size_eq_countP view
    rw [← size_eq]
    refine ⟨fun k hk => ⟨?_, fun off => phaseOffset_aligned off .., fun low => ?_⟩, fun j k hj hk lt between on => ?_⟩
    · unfold phaseOffset; split
      · exact rank_offset_le (rank_lt_size hk) period
      · exact Nat.zero_le _
    · unfold phaseOffset; rw [rank_lowest low, Nat.zero_mul, Nat.zero_div, ite_self]
    · rw [phaseOffset_interleaved on, phaseOffset_interleaved on, rank_next hj lt between]
      exact rank_offset_succ (Nat.zero_lt_of_lt (rank_lt_size hj)) _ period

end Sys2Proof.Machine
end

section
/-! SUPPORT. The legs of a load of a running carrier: the advance and the load are each judged, in either order (R105, R108, R110,
R111, R112, R113). -/

namespace Sys2Proof.Machine

/-! ## A leg judged twice -/

/-- A leg after two judgements in one tick, from the leg before them: a gate stays on where both demand it, and one that the later
demands and that is off waits (R110, R111, R112). -/
def Rejudged (earlier later : Option Side) (b l : LegState) : Prop :=
  ∀ side,
    (gateOn l side = true ↔ gateOn b side = true ∧ later = some side ∧ earlier = some side) ∧
    (l.pending = some side ↔ later = some side ∧ gateOn l side = false)

theorem gateOn_takeSetting (enabled : Bool) (x : LegSetting) (l : LegState) (side : Side) :
    gateOn (takeSetting enabled x l) side = gateOn l side := by
  cases enabled <;> cases side <;> rfl

/-- After a judgement the gate that waits is the one demanded and off: no judgement turns a gate on (R112). -/
theorem pending_judgeLeg_after (wanted : Option Side) (l : LegState) (side : Side) :
    (judgeLeg wanted l).pending = some side ↔ wanted = some side ∧ gateOn (judgeLeg wanted l) side = false := by
  rw [pending_judgeLeg, gateOn_judgeLeg]
  refine and_congr_right fun hw => ?_
  simp [hw]

/-- The advance judged first, then the load. -/
theorem rejudged_advance_load (earlier later : Option Side) (enabled : Bool) (x : LegSetting) (b : LegState) :
    Rejudged earlier later b (judgeLeg later (takeSetting enabled x (judgeLeg earlier b))) := by
  refine fun side => ⟨?_, pending_judgeLeg_after later _ side⟩
  simp only [gateOn_judgeLeg, gateOn_takeSetting, Bool.and_eq_true, decide_eq_true_eq]
  tauto

/-- The load judged first, then the advance. -/
theorem rejudged_load_advance (earlier later : Option Side) (enabled : Bool) (x : LegSetting) (b : LegState) :
    Rejudged earlier later b (judgeLeg later (judgeLeg earlier (takeSetting enabled x b))) := by
  refine fun side => ⟨?_, pending_judgeLeg_after later _ side⟩
  simp only [gateOn_judgeLeg, gateOn_takeSetting, Bool.and_eq_true, decide_eq_true_eq]
  tauto

/-! ## An advance, a load -/

section
variable {s : State} (hs : s.station = .running)
include hs

/-- An advance judges a leg at the new position (R95, R110). -/
theorem get_advanceTo (position : Nat) (leg : Leg) :
    let l := s.gate.legs.get leg
    (advanceTo position s).gate.legs.get leg =
      judgeLeg (demand l.mode l.compare (carrierValue s.carrier.shape s.carrier.period position)) l := by
  dsimp only
  unfold advanceTo
  rw [judgeGates_running (by exact hs), get_map]; rfl

/-- A load gives a leg its setting, and judges it where the carrier stands (R108, R110). -/
theorem get_gateLoad (leg : Leg) :
    let taken := takeSetting ((liveProfile s).enables.get leg) (s.setpoint.live.get leg) (s.gate.legs.get leg)
    (gateLoad s).gate.legs.get leg = judgeLeg (demand taken.mode taken.compare (carrierNow s)) taken := by
  have station : (takeLive s).station = .running := by rw [takeLive_eq]; exact hs
  have value : carrierNow (takeLive s) = carrierNow s := by rw [takeLive_eq]; rfl
  dsimp only
  unfold gateLoad
  rw [judgeGates_running station, get_map, value, get_takeLive hs]

end

/-- A load from another carrier and other gates: it keeps both, and the rest is what it makes of the station (R123). -/
theorem load_keeps (c : Carrier) (g : Gate) (s : State) :
    let u := (load { s with carrier := c, gate := g }).1
    u.station = s.station ∧ u.carrier = c ∧ u.gate = g ∧ liveProfile u = liveProfile s ∧
      u.setpoint = (load s).1.setpoint := by
  obtain ⟨_, -, e⟩ := load_eq s
  dsimp only
  rw [load_frame]; unfold liveProfile; rw [e]
  exact ⟨rfl, rfl, rfl, rfl, rfl⟩

/-- The setting that a load gives a leg (R108, R123). -/
def loadedSetting (s : State) (leg : Leg) (l : LegState) : LegState :=
  takeSetting ((liveProfile s).enables.get leg) ((load s).1.setpoint.live.get leg) l

/-- A leg judged under its own mode and compare value at a carrier value (R109, R110). -/
def judgedAt (value : Nat) (l : LegState) : LegState := judgeLeg (demand l.mode l.compare value) l

section
variable {s : State} (hs : s.station = .running) (position : Nat) (leg : Leg)
include hs

/-- The load first: the leg takes its setting with the carrier at the position before, and is judged there and at the position. -/
theorem get_loadAt_loadFirst :
    (loadAt position true s).1.gate.legs.get leg =
      judgedAt (carrierValue s.carrier.shape s.carrier.period position)
        (judgedAt (carrierValue s.carrier.shape s.carrier.period (previousPosition s.carrier.period position))
          (loadedSetting s leg (s.gate.legs.get leg))) := by
  obtain ⟨station, carrier, gate, live, setpoint⟩ :=
    load_keeps { s.carrier with position := previousPosition s.carrier.period position } s.gate s
  rw [loadAt_eq, if_pos rfl]
  dsimp only at *
  generalize (load { s with
    carrier := { s.carrier with position := previousPosition s.carrier.period position } }).1 = u at *
  have loaded := get_gateLoad (station.trans hs) leg
  have judged := get_advanceTo (s := gateLoad u) (by rw [gateLoad_eq]; exact station.trans hs) position leg
  have moved : (gateLoad u).carrier = u.carrier := by rw [gateLoad_eq]
  rw [moved, loaded] at judged
  rw [judged, live, setpoint, gate, carrierNow, carrier]; rfl

/-- The advance first: the leg is judged at the position, then takes its setting and is judged there again. -/
theorem get_loadAt_advanceFirst :
    (loadAt position false s).1.gate.legs.get leg =
      judgedAt (carrierValue s.carrier.shape s.carrier.period position) (loadedSetting s leg
        (judgedAt (carrierValue s.carrier.shape s.carrier.period position) (s.gate.legs.get leg))) := by
  obtain ⟨station, carrier, gate, live, setpoint⟩ :=
    load_keeps { s.carrier with position := position, setThisTick := false } (advanceTo position s).gate s
  rw [loadAt_eq, if_neg Bool.false_ne_true]
  dsimp only at *
  rw [← advanceTo_eq] at station carrier gate live setpoint
  generalize (load (advanceTo position s)).1 = u at *
  have loaded := get_gateLoad (station.trans hs) leg
  rw [live, setpoint, gate, get_advanceTo hs, carrierNow, carrier] at loaded
  exact loaded

end

/-- The earlier of the two demands of a leg at a load: with the load first it is that of the new setting at the position before, and
otherwise that of the old setting at the new position (R105, R110). -/
def earlierDemand (position : Nat) (loadFirst : Bool) (c : Carrier) (b l : LegState) : Option Side :=
  if loadFirst then demand l.mode l.compare (carrierValue c.shape c.period (previousPosition c.period position))
  else demand b.mode b.compare (carrierValue c.shape c.period position)

/-- Where the order is open, the earlier demand is one of two (R110). -/
theorem earlierDemand_of_order (position : Nat) (loadFirst : Bool) (c : Carrier) (b l : LegState) (side : Side) :
    let atNew := demand b.mode b.compare (carrierValue c.shape c.period position) = some side
    let atOld := demand l.mode l.compare (carrierValue c.shape c.period (previousPosition c.period position)) = some side
    (earlierDemand position loadFirst c b l = some side → atNew ∨ atOld) ∧
      (atNew → atOld → earlierDemand position loadFirst c b l = some side) := by
  unfold earlierDemand
  cases loadFirst with
  | true => exact ⟨.inr, fun _ h => h⟩
  | false => exact ⟨.inl, fun h _ => h⟩

theorem setting_judgedAt (value : Nat) (l : LegState) :
    (judgedAt value l).mode = l.mode ∧ (judgedAt value l).compare = l.compare :=
  ⟨mode_judgeLeg _ _, compare_judgeLeg _ _⟩

theorem judgedAt_judgedAt (old new : Nat) (l : LegState) :
    judgedAt new (judgedAt old l) = judgeLeg (demand l.mode l.compare new) (judgeLeg (demand l.mode l.compare old) l) := by
  simp only [judgedAt, mode_judgeLeg, compare_judgeLeg]

/-- The legs of a load of a running carrier, against those before it (R105, R108, R110, R111, R112). -/
theorem loadAt_legs {s : State} (hs : s.station = .running) (position : Nat) (loadFirst : Bool) (leg : Leg) :
    let b := s.gate.legs.get leg
    let l := (loadAt position loadFirst s).1.gate.legs.get leg
    l.mode = (if (liveProfile s).enables.get leg then ((load s).1.setpoint.live.get leg).mode else .off) ∧
    l.compare = (if (liveProfile s).enables.get leg then ((load s).1.setpoint.live.get leg).compare else 0) ∧
    Rejudged (earlierDemand position loadFirst s.carrier b l)
      (demand l.mode l.compare (carrierValue s.carrier.shape s.carrier.period position)) b l := by
  have setting := takeSetting_setting ((liveProfile s).enables.get leg) ((load s).1.setpoint.live.get leg)
  cases loadFirst with
  | true =>
    rw [get_loadAt_loadFirst hs]
    simp only [earlierDemand, if_true, setting_judgedAt]
    refine ⟨(setting _).1, (setting _).2, ?_⟩
    rw [judgedAt_judgedAt]; exact rejudged_load_advance _ _ _ _ _
  | false =>
    rw [get_loadAt_advanceFirst hs]
    simp only [earlierDemand, if_false, setting_judgedAt, Bool.false_eq_true]
    exact ⟨(setting _).1, (setting _).2, rejudged_advance_load _ _ _ _ _⟩

end Sys2Proof.Machine
end

section
/-! O31. A load point under a QUEUE profile that finds a record of the live profile (R104, R108, R110, R124, R125). -/

namespace Sys2Proof.Machine

theorem exec_loadPoint (position : LoadPosition) {s : State} (h : s.pins.rstn = true) :
    exec (.loadPoint position) s = .next (loadPointStep position s) := whilePowered_on _ h

/-- The reports of stale records that are discarded: one STALE_SETPOINT where there are any (R124). -/
def staleReports (stale : List Setpoint) (s : State) : List Report :=
  match stale with
  | [] => s.host.reports
  | x :: xs => arrive s.host.reports (reportOf (.staleSetpoint (xs.length + 1) x.tag s.change.profile) s.number s)

section
variable {s : State} {stale rest : List Setpoint} {r : Setpoint} (queue : s.setpoint.queue = stale ++ r :: rest)
  (head : r.tag = s.change.profile) (old : ∀ x ∈ stale, x.tag ≠ s.change.profile)
include queue head old

/-- The records before the first of the live profile are the stale ones. -/
theorem queue_splits : s.setpoint.queue.takeWhile (fun x => x.tag != s.change.profile) = stale ∧
    s.setpoint.queue.dropWhile (fun x => x.tag != s.change.profile) = r :: rest := by
  have all : ∀ x ∈ stale, (x.tag != s.change.profile) = true := fun x hx => by simpa using old x hx
  have stop : ¬(r.tag != s.change.profile) = true := by simp [head]
  rw [queue, List.takeWhile_append_of_pos all, List.dropWhile_append_of_pos all]
  exact ⟨by rw [List.takeWhile_cons_of_neg (by exact stop), List.append_nil], List.dropWhile_cons_of_neg (by exact stop)⟩

theorem discardStale_before_head : discardStale s = { s with
    setpoint := { s.setpoint with queue := r :: rest }
    host := { s.host with reports := staleReports stale s } } := by
  obtain ⟨taken, left⟩ := queue_splits queue head old
  unfold discardStale; simp only [taken, left, postSelf_setpoint]
  cases stale with
  | nil => rw [List.nil_append] at queue; rw [← queue]; rfl
  | cons => rfl

/-- A load under a QUEUE profile that finds a record of the live profile raises no cause (R124, R125). -/
theorem load_takes_head (source : (liveProfile s).source = .queue) : load s = ({ s with
    setpoint := { s.setpoint with queue := rest, live := r.legs, starve := 0, starveRun := false }
    host := { s.host with reports := staleReports stale s } }, false) := by
  rw [load_queue source]; unfold queueLoad; dsimp only
  rw [discardStale_before_head queue head old]

end

/-- Settles O31: the load takes the head, and each leg is judged twice, in the order that is open. -/
theorem loadPointTakesQueueHead : Obligations.LoadPointTakesQueueHead := by
  intro position stale rest r s hp hs running has source queue head old
  have loaded := load_takes_head (s := { s with free := s.free + 1 }) queue head old source
  obtain ⟨g, e, dead, -⟩ := loadAt_spec (loadPositionAt s.carrier position) (Config.firstOfTwo s.free)
    { s with free := s.free + 1 }
  have legs := loadAt_legs (s := { s with free := s.free + 1 }) hs (loadPositionAt s.carrier position)
    (Config.firstOfTwo s.free)
  rw [exec_loadPoint position hp, loadPointStep_running position running has]
  rw [e, loaded] at *
  refine ⟨_, rfl, rfl, ?_, fun leg => ?_, fun leg => ?_, rfl, dead, rfl⟩
  · cases position <;> rfl
  · obtain ⟨mode, compare, -⟩ := legs leg
    exact ⟨mode, compare⟩
  · obtain ⟨-, -, judged⟩ := legs leg
    intro b l old new side
    obtain ⟨stays, waits⟩ := judged side
    obtain ⟨either, both⟩ := earlierDemand_of_order (loadPositionAt s.carrier position) (Config.firstOfTwo s.free) s.carrier b l
      side
    refine ⟨fun on => ?_, fun on later atNew atOld => stays.2 ⟨on, later, both atNew atOld⟩, waits⟩
    obtain ⟨was, later, earlier⟩ := stays.1 on
    exact ⟨was, later, either earlier⟩

end Sys2Proof.Machine
end

section
/-! SUPPORT. The mark re-phase of a running carrier (R100, R101, R102), and what it does not read. -/

namespace Sys2Proof.Machine

/-! ## What a load of a running carrier does not read -/

/-- The station with other values of what no load reads: the counter of the free values and the refresh collection. -/
def withUnread (n : Nat) (l : List (StationSet × ProfileNo)) (s : State) : State :=
  { s with free := n, change := { s.change with collection := l } }

section
variable (n : Nat) (l : List (StationSet × ProfileNo)) (s : State)

theorem judgeGates_withUnread : judgeGates (withUnread n l s) = withUnread n l (judgeGates s) := by
  unfold judgeGates; rw [apply_ite (withUnread n l)]; rfl

theorem takeLive_withUnread : takeLive (withUnread n l s) = withUnread n l (takeLive s) := by
  unfold takeLive; dsimp only; rw [apply_ite (withUnread n l)]; rfl

theorem gateLoad_withUnread : gateLoad (withUnread n l s) = withUnread n l (gateLoad s) := by
  unfold gateLoad; rw [takeLive_withUnread, judgeGates_withUnread]

theorem advanceTo_withUnread (position : Nat) : advanceTo position (withUnread n l s) = withUnread n l (advanceTo position s) :=
  judgeGates_withUnread n l { s with carrier := { s.carrier with position := position, setThisTick := false } }

theorem starvedLoad_withUnread :
    starvedLoad (withUnread n l s) = (withUnread n l (starvedLoad s).1, (starvedLoad s).2) := by
  unfold starvedLoad
  cases h : s.setpoint.starveRun <;> simp only [withUnread, h] <;> rfl

theorem discardStale_withUnread : discardStale (withUnread n l s) = withUnread n l (discardStale s) := by
  unfold discardStale; dsimp only [withUnread]
  split <;> rfl

theorem patternLoad_withUnread : patternLoad (withUnread n l s) = withUnread n l (patternLoad s) := by
  unfold patternLoad; dsimp only; simp only [apply_ite (withUnread n l)]; rfl

theorem queueLoad_withUnread : queueLoad (withUnread n l s) = (withUnread n l (queueLoad s).1, (queueLoad s).2) := by
  unfold queueLoad; rw [discardStale_withUnread]
  generalize discardStale s = u
  cases h : u.setpoint.queue with
  | nil => simp only [withUnread, h]; exact starvedLoad_withUnread n l u
  | cons r rest => simp only [withUnread, h]

theorem load_withUnread : load (withUnread n l s) = (withUnread n l (load s).1, (load s).2) := by
  cases h : (liveProfile s).source with
  | queue => rw [load_queue h, load_queue (s := withUnread n l s) h]; exact queueLoad_withUnread n l s
  | pattern => rw [load_pattern h, load_pattern (s := withUnread n l s) h, patternLoad_withUnread]

theorem loadAt_withUnread (position : Nat) (loadFirst : Bool) : loadAt position loadFirst (withUnread n l s) =
    (withUnread n l (loadAt position loadFirst s).1, (loadAt position loadFirst s).2) := by
  rw [loadAt_eq, loadAt_eq]
  cases loadFirst with
  | true =>
    have moved := load_withUnread n l
      { s with carrier := { s.carrier with position := previousPosition s.carrier.period position } }
    simp only [if_true]
    rw [show load { withUnread n l s with carrier := { (withUnread n l s).carrier with
      position := previousPosition (withUnread n l s).carrier.period position } } = _ from moved]
    rw [gateLoad_withUnread, advanceTo_withUnread]
  | false =>
    simp only [Bool.false_eq_true, if_false]
    rw [advanceTo_withUnread, load_withUnread, gateLoad_withUnread]

end

/-! ## The re-phase and its load (R100, R101) -/

/-- At a correction of 0 the re-phase is an advance with a load in either order; otherwise the advance is first (R105, R110). -/
def rephaseLoadFirst (s : State) : Bool := decide (correction s.carrier = 0) && Config.firstOfTwo s.free

/-- The counter of the free values after a re-phase that loads. -/
def rephaseFree (s : State) : Nat := if correction s.carrier = 0 then s.free + 1 else s.free

section
variable {s : State} (hr : s.carrier.running = true) (ht : s.carrier.setThisTick = false)
include hr ht

theorem markRephase_advances (hl : rephaseLoads s.carrier = false) :
    markRephase s = (advanceTo s.carrier.offset (noteRerun s), false) := (markRephase_spec s hr ht).1 hl

/-- A re-phase that loads is a load at the offset, but for the counter of the free values. -/
theorem markRephase_loads (hl : rephaseLoads s.carrier = true) :
    markRephase s =
      (withUnread (rephaseFree s) s.change.collection (loadAt s.carrier.offset (rephaseLoadFirst s) (noteRerun s)).1,
        (loadAt s.carrier.offset (rephaseLoadFirst s) (noteRerun s)).2) := by
  rw [← loadAt_withUnread]
  unfold markRephase rephaseLoadFirst rephaseFree; dsimp only
  rw [if_pos ⟨hr, ht⟩, if_pos hl]
  split
  · rename_i zero
    simp only [zero, decide_true, Bool.true_and]; rfl
  · rename_i far
    simp only [far, decide_false, Bool.false_and]; rfl

/-- A re-phase does not read the refresh collection. -/
theorem markRephase_emptied : markRephase (emptied s) = (emptied (markRephase s).1, (markRephase s).2) := by
  cases hl : rephaseLoads s.carrier with
  | false =>
    have free : (advanceTo s.carrier.offset (noteRerun s)).free = s.free := by rw [advanceTo_eq]; rfl
    rw [markRephase_advances hr ht hl, markRephase_advances (s := emptied s) hr ht hl]
    refine congrArg (·, false) ((advanceTo_withUnread s.free [] (noteRerun s) s.carrier.offset).trans ?_)
    rw [← free]; rfl
  | true =>
    rw [markRephase_loads hr ht hl, markRephase_loads (s := emptied s) hr ht hl,
      show noteRerun (emptied s) = withUnread s.free [] (noteRerun s) from rfl, loadAt_withUnread]
    rfl

end

/-! ## Where the re-phase loads, in positions (R100, R101) -/

/-- In a period a position lies `d` ticks after another exactly where its distance from it is `d`. -/
theorem distance_eq_iff {period natural d : Nat} (hn : natural < period) (hd : d < period) (x : Nat) :
    (x + (period - natural)) % period = d ↔ x % period = (natural + d) % period := by
  have back : natural + d + (period - natural) = d + period := by omega
  constructor
  · intro h
    have : x + (period - natural) ≡ natural + d + (period - natural) [MOD period] := by
      rw [back, Nat.ModEq, h, Nat.add_mod_right, Nat.mod_eq_of_lt hd]
    exact Nat.ModEq.add_right_cancel' _ this
  · intro h
    have : x + (period - natural) ≡ natural + d + (period - natural) [MOD period] := Nat.ModEq.add_right _ h
    rw [back, Nat.ModEq, Nat.add_mod_right, Nat.mod_eq_of_lt hd] at this
    exact this

theorem naturalPosition_lt {c : Carrier} (h : c.position < c.period) : naturalPosition c < c.period := by
  unfold naturalPosition nextPosition; split <;> omega

/-- The correction, from the offset to the natural position backwards round the period (R100). -/
theorem correction_eq {c : Carrier} (h : c.position < c.period) :
    correction c = (c.offset + c.period - naturalPosition c) % c.period := by
  have := naturalPosition_lt h
  unfold correction; rw [Nat.add_sub_assoc this.le]

/-- A re-phase loads where a load position lies on the way from the natural position to the offset, past what is still to be run
again (R100, R101). -/
theorem rephaseLoads_iff {c : Carrier} (h : c.position < c.period) : rephaseLoads c = true ↔
    correction c ≤ c.period / 2 ∧ ∃ x ∈ loadPositions c.loadSetting c.period, ∃ d, c.rerun ≤ d ∧ d ≤ correction c ∧
      x % c.period = (naturalPosition c + d) % c.period := by
  have period : 0 < c.period := by omega
  have short : correction c < c.period := Nat.mod_lt _ period
  have natural := naturalPosition_lt h
  simp only [rephaseLoads, Bool.and_eq_true, decide_eq_true_eq, List.any_eq_true]
  refine and_congr_right fun _ => exists_congr fun x => and_congr_right fun _ => ⟨fun ⟨low, high⟩ => ?_, ?_⟩
  · exact ⟨_, low, high, (distance_eq_iff natural (by omega) x).1 rfl⟩
  · rintro ⟨d, low, high, e⟩
    rw [(distance_eq_iff natural (by omega) x).2 e]; exact ⟨low, high⟩

/-- A correction of 0 sets the carrier where its advance puts it (R100). -/
theorem previousPosition_offset {c : Carrier} (offset : c.offset < c.period) (position : c.position < c.period)
    (zero : correction c = 0) : previousPosition c.period c.offset = c.position := by
  have here : c.offset = naturalPosition c := by
    have := (distance_eq_iff (naturalPosition_lt position) (by omega) c.offset).1 zero
    rwa [Nat.add_zero, Nat.mod_eq_of_lt offset, Nat.mod_eq_of_lt (naturalPosition_lt position)] at this
  rw [here]; unfold naturalPosition nextPosition previousPosition
  split
  · rw [if_pos rfl]; omega
  · rw [if_neg (Nat.succ_ne_zero _)]; rfl

end Sys2Proof.Machine
end

section
/-! O37. The mark re-phase and its mark (R100, R101, R102, R104, R108, R110, R123, R139). -/

namespace Sys2Proof.Machine

/-! ## The parts of the station that a re-phase sets -/

section
variable {s : State} (hr : s.carrier.running = true) (ht : s.carrier.setThisTick = false)
include hr ht

/-- The carrier is at its offset, the dead time stands, and nothing but the outputs, the reports and the free values changes. -/
theorem markRephase_sets :
    let t := (markRephase s).1
    t.carrier = { s.carrier with position := s.carrier.offset, rerun := rerunAfter s.carrier } ∧
      t.gate.deadTime = s.gate.deadTime ∧
      t = { s with carrier := t.carrier, gate := t.gate, setpoint := t.setpoint, host := t.host, free := t.free } := by
  obtain ⟨l, -, n, e⟩ := markRephase_eq s hr ht
  have deadTime : (markRephase s).1.gate.deadTime = s.gate.deadTime := by
    cases hl : rephaseLoads s.carrier with
    | false => rw [markRephase_advances hr ht hl]; exact advanceTo_deadTime _ _
    | true =>
      obtain ⟨g, eg, dead, -⟩ := loadAt_spec s.carrier.offset (rephaseLoadFirst s) (noteRerun s)
      rw [markRephase_loads hr ht hl, eg]; exact dead
  exact ⟨congrArg (·.carrier) e, deadTime, by rw [e]⟩

/-- Without a load the setpoints and the reports stand (R101). -/
theorem markRephase_still (hl : rephaseLoads s.carrier = false) :
    (markRephase s).1.setpoint = s.setpoint ∧ (markRephase s).1.host = s.host ∧ (markRephase s).2 = false := by
  rw [markRephase_advances hr ht hl]
  refine ⟨?_, ?_, rfl⟩ <;> rw [advanceTo_eq] <;> rfl

/-- The load of a re-phase is that of a load point (R101, R123). -/
theorem markRephase_supplies (hl : rephaseLoads s.carrier = true) :
    (markRephase s).1.setpoint = (load s).1.setpoint ∧ (markRephase s).1.host = (load s).1.host ∧
      (markRephase s).2 = (load s).2 := by
  obtain ⟨g, e, -⟩ := loadAt_spec s.carrier.offset (rephaseLoadFirst s) (noteRerun s)
  have frame : load (noteRerun s) = _ := load_frame (noteRerun s).carrier s.gate s
  rw [frame] at e
  rw [markRephase_loads hr ht hl, e]
  exact ⟨rfl, rfl, rfl⟩

variable (hs : s.station = .running)
include hs

/-- Without a load a leg is judged once, at the offset (R110). -/
theorem markRephase_still_legs (hl : rephaseLoads s.carrier = false) (leg : Leg) :
    (markRephase s).1.gate.legs.get leg =
      judgedAt (carrierValue s.carrier.shape s.carrier.period s.carrier.offset) (s.gate.legs.get leg) := by
  rw [markRephase_advances hr ht hl]; exact get_advanceTo (s := noteRerun s) hs s.carrier.offset leg

/-- With a load a leg is judged twice, as at a load point (R108, R110). -/
theorem markRephase_loads_legs (hl : rephaseLoads s.carrier = true) (leg : Leg) :
    let b := s.gate.legs.get leg
    let l := (markRephase s).1.gate.legs.get leg
    l.mode = (if (liveProfile s).enables.get leg then ((load s).1.setpoint.live.get leg).mode else .off) ∧
    l.compare = (if (liveProfile s).enables.get leg then ((load s).1.setpoint.live.get leg).compare else 0) ∧
    Rejudged (earlierDemand s.carrier.offset (rephaseLoadFirst s) s.carrier b l)
      (demand l.mode l.compare (carrierValue s.carrier.shape s.carrier.period s.carrier.offset)) b l := by
  obtain ⟨-, -, -, -, setpoint⟩ := load_keeps (noteRerun s).carrier s.gate s
  have legs := loadAt_legs (s := noteRerun s) hs s.carrier.offset (rephaseLoadFirst s) leg
  dsimp only at legs setpoint
  rw [show (load (noteRerun s)).1.setpoint = (load s).1.setpoint from setpoint] at legs
  rw [markRephase_loads hr ht hl]; exact legs

end

/-- The earlier demand of a leg at a re-phase (R105, R110): only where the correction is 0 can the load come before the advance. -/
theorem earlierDemand_rephase {s : State} (offset : s.carrier.offset < s.carrier.period)
    (position : s.carrier.position < s.carrier.period) (b l : LegState) :
    earlierDemand s.carrier.offset (rephaseLoadFirst s) s.carrier b l =
      if correction s.carrier = 0 ∧ Config.firstOfTwo s.free = true then
        demand l.mode l.compare (carrierValue s.carrier.shape s.carrier.period s.carrier.position)
      else demand b.mode b.compare (carrierValue s.carrier.shape s.carrier.period s.carrier.offset) := by
  have order : rephaseLoadFirst s = true ↔ correction s.carrier = 0 ∧ Config.firstOfTwo s.free = true := by
    simp [rephaseLoadFirst]
  unfold earlierDemand
  by_cases first : rephaseLoadFirst s = true
  · obtain ⟨zero, free⟩ := order.1 first
    rw [if_pos first, if_pos ⟨zero, free⟩, previousPosition_offset offset position zero]
  · rw [if_neg first, if_neg (mt order.2 first)]

/-! ## The mark of a RUNNING station with its slot NONE (R61, R65, R102, R139) -/

/-- At such a station, and in TRIPPED, the Change Unit only empties the collection. -/
theorem changeMark_idle {s : State} (h : s.station = .tripped ∨ s.station = .running ∧ s.change.slot.state = .vacant) :
    changeMark s = emptied s := by
  rcases h with tripped | ⟨running, vacant⟩
  · exact changeMark_tripped tripped
  · have idle := deadline_vacant vacant
    rw [changeMark_deadline (by simp [inGroup, running]) (.inr (by rw [idle]; simp [running])), idle]

/-- A STARVED that is raised stands: the outputs and the Change Unit are as before. -/
structure Stands (s t : State) : Prop where
  station : t.station = .running
  carrier : t.carrier = s.carrier
  gate : t.gate = s.gate
  setpoint : t.setpoint = s.setpoint
  change : t.change = s.change

/-- A STARVED that is raised trips the station (R136). -/
structure StarvedOut (s t : State) : Prop where
  station : t.station = .tripped
  first : t.trip.first = some .starved
  drive : t.trip.drive = (rowOf s.tables .starved).drive
  gate : t.gate = Gate.off
  carrier : t.carrier = Carrier.stopped
  setpoint : t.setpoint = SetpointUnit.empty
  view : t.change.view = 0

theorem Stands.emptied {s t : State} (h : Stands s t) : Stands (emptied s) (emptied t) :=
  ⟨h.station, h.carrier, h.gate, h.setpoint, by unfold Machine.emptied; rw [h.change]⟩

theorem StarvedOut.emptied {s t : State} (h : StarvedOut s t) : StarvedOut (emptied s) (emptied t) :=
  ⟨h.station, h.first, h.drive, h.gate, h.carrier, h.setpoint, h.view⟩

/-- What comes of a STARVED (R139): `t` is what it leaves of a RUNNING station `s`. -/
structure StarvedOutcome (s t : State) : Prop where
  either : Stands s t ∨ StarvedOut s t
  stands : (rowOf s.tables .starved).action ≠ .trip ∨ s.pending.any mayClaim = true → Stands s t
  trips : (rowOf s.tables .starved).action = .trip → s.pending = [] → StarvedOut s t

theorem StarvedOutcome.emptied {s t : State} (h : StarvedOutcome s t) : StarvedOutcome (emptied s) (emptied t) :=
  ⟨h.either.imp Stands.emptied StarvedOut.emptied, fun hm => (h.stands hm).emptied, fun hr hp => (h.trips hr hp).emptied⟩

section
variable {s : State} (hs : s.station = .running)
include hs

theorem starvedOut_takeOwnCause (hr : (rowOf s.tables .starved).action = .trip) (n : Nat) :
    StarvedOut s (takeOwnCause .starved { s with free := n }) := by
  rw [takeOwnCause_starved_trips (s := { s with free := n }) hs hr, tripEntry_eq]
  exact ⟨rfl, rfl, rfl, rfl, rfl, rfl, rfl⟩

theorem starvedOutcome_raiseStarved : StarvedOutcome s (raiseStarved true s) := by
  have mild (hr : (rowOf s.tables .starved).action ≠ .trip) : Stands s (raiseStarved true s) := by
    obtain ⟨_, -, _, _, e⟩ := raiseStarved_mild true s hr
    rw [e]; exact ⟨hs, rfl, rfl, rfl, rfl⟩
  have behind (hp : s.pending.any mayClaim = true) : Stands s (raiseStarved true s) := by
    rw [raiseStarved_behind hp]; split <;> exact ⟨hs, rfl, rfl, rfl, rfl⟩
  refine ⟨?_, fun h => h.elim mild behind, fun hr hp => ?_⟩
  · by_cases hr : (rowOf s.tables .starved).action = .trip
    · rcases raiseStarved_cases s with e | ⟨-, n, e | e⟩ <;> rw [e]
      · exact .inr (starvedOut_takeOwnCause hs hr s.free)
      · exact .inr (starvedOut_takeOwnCause hs hr n)
      · exact .inl ⟨hs, rfl, rfl, rfl, rfl⟩
    · exact .inl (mild hr)
  · rw [raiseStarved_alone true hp, if_pos rfl]; exact starvedOut_takeOwnCause hs hr s.free

variable (hv : s.change.slot.state = .vacant)
include hv

/-- The Change Unit after a load, with nothing to apply or to close: the STARVED cause, then the collection (R65). -/
theorem changeAfterLoad_vacant (raised : Bool) : changeAfterLoad raised s = emptied (raiseStarved raised s) := by
  have noDeadline : deadlineFalls s = false := by simp [deadlineFalls, hv]
  unfold changeAfterLoad; rw [if_neg (by simp [noDeadline])]
  refine changeMark_idle ?_
  cases raised with
  | false => exact .inr ⟨hs, hv⟩
  | true =>
    rcases (starvedOutcome_raiseStarved hs).either with stands | out
    · exact .inr ⟨stands.station, by rw [stands.change]; exact hv⟩
    · exact .inl out.station

end

/-- A mark accepted by a RUNNING station with its slot NONE is its re-phase, the STARVED cause of its load and the emptied collection,
the last two in either order (R102). -/
theorem exec_vacantMark {start : Nat} {s : State} (hp : s.pins.rstn = true) (hs : s.station = .running)
    (hc : s.carrier.running = true) (ht : tailStart s ≤ start)
    (hsh : start < cycleLength s - cycleLength s / 64 → s.link.shorts < 2) (hv : s.change.slot.state = .vacant) :
    let r := markRephase { numbered start s with free := s.free + 1 }
    (r.1.station = .running ∧ r.1.tables = s.tables ∧ r.1.pending = s.pending) ∧
      (exec (.markAccepted start) s = .next (emptied (raiseStarved r.2 r.1)) ∨
        exec (.markAccepted start) s = .next (raiseStarved r.2 (emptied r.1))) := by
  obtain ⟨c, l, u⟩ := numbered_numbers start s
  have before := numbered_free start s
  have slot : c.state = .vacant := by
    by_cases slips : Slips s
    · rw [(u.slip slips).1 hv]; exact hv
    · rw [(u.stay slips).1]; exact hv
  rw [exec_acceptedMark hp ((onLink_iff s).2 (.inr (.inl hs))) ht hsh]
  have awake : (agreeNumber (markRestart (watched start s))).carrier.running = true := by
    have := congrArg (fun x : State => x.carrier.running) before
    exact this.symm.trans (by rw [u.carrier]; exact hc)
  rw [markEvent_running awake before]
  generalize ({ numbered start s with free := s.free + 1 } : State) = v at u ⊢
  have running : v.carrier.running = true := by rw [u.carrier]; exact hc
  have unset : v.carrier.setThisTick = false := by rw [u.carrier]
  have vRunning : v.station = .running := u.station.trans hs
  have vVacant : v.change.slot.state = .vacant := by rw [u.slot]; exact slot
  rw [changeMark_idle (.inr ⟨vRunning, vVacant⟩), markRephase_emptied running unset]
  obtain ⟨-, -, frame⟩ := markRephase_sets running unset
  dsimp only at frame ⊢
  generalize markRephase v = r at frame ⊢
  have rRunning : r.1.station = .running := by rw [frame]; exact vRunning
  have rVacant : r.1.change.slot.state = .vacant := by rw [frame]; exact vVacant
  rw [changeAfterLoad_vacant rRunning rVacant]
  refine ⟨⟨rRunning, by rw [frame]; exact u.tables, by rw [frame]; exact u.pending⟩, ?_⟩
  split
  · exact .inl rfl
  · exact .inr rfl

/-- Settles O37: the re-phase by whether it loads, and the mark by what comes of the STARVED cause of that load. -/
theorem markRephaseSetsTheOffset : Obligations.MarkRephaseSetsTheOffset := by
  constructor
  · intro s running offset position natural forward loads t
    have forward_eq : forward = correction s.carrier := (correction_eq position).symm
    have loads_iff : loads ↔ rephaseLoads s.carrier = true := by
      rw [rephaseLoads_iff position, ← forward_eq]; rfl
    refine ⟨fun set => if_neg (by simp [set]), fun unset => ?_⟩
    obtain ⟨carrier, deadTime, frame⟩ := markRephase_sets running unset
    refine ⟨by rw [forward_eq]; exact carrier, deadTime, frame, fun h => markRephase_supplies running unset (loads_iff.1 h),
      fun h => markRephase_still running unset (Bool.eq_false_iff.2 (mt loads_iff.2 h)), fun hs leg => ?_⟩
    have value : carrierNow t = carrierValue s.carrier.shape s.carrier.period s.carrier.offset := by
      unfold carrierNow; rw [carrier]
    intro l l' live
    by_cases h : loads
    · have hl := loads_iff.1 h
      obtain ⟨mode, compare, judged⟩ := markRephase_loads_legs running unset hs hl leg
      rw [← (markRephase_supplies running unset hl).1] at mode compare
      refine ⟨fun _ => ⟨mode, compare⟩, fun no => absurd h no, ?_⟩
      intro between side
      have earlier : earlierDemand s.carrier.offset (rephaseLoadFirst s) s.carrier l l' = between := by
        rw [earlierDemand_rephase offset position, ← forward_eq, ← value]
      obtain ⟨stays, waits⟩ := judged side
      rw [earlier, ← value] at stays
      rw [← value] at waits
      exact ⟨stays.trans (and_congr_right fun _ => and_congr_right fun _ => ⟨fun e _ => e, fun e => e h⟩), waits⟩
    · have leg_eq : l' = judgedAt (carrierNow t) l :=
        value ▸ markRephase_still_legs running unset hs (Bool.eq_false_iff.2 (mt loads_iff.2 h)) leg
      obtain ⟨mode, compare⟩ := setting_judgedAt (carrierNow t) l
      rw [leg_eq, mode, compare]
      refine ⟨fun yes => absurd yes h, fun _ => ⟨rfl, rfl⟩, ?_⟩
      refine fun side => ⟨?_, pending_judgeLeg_after _ l side⟩
      rw [judgedAt, gateOn_judgeLeg]; simp [h]
  · intro start s hp hs running tail short vacant r
    obtain ⟨⟨stays, tables, pending⟩, order⟩ := exec_vacantMark hp hs running tail short vacant
    refine ⟨fun quiet => ?_, fun raised => ?_⟩
    · rcases order with e | e <;> rw [e, show (markRephase _).2 = false from quiet] <;> rfl
    · obtain ⟨t, e, outcome⟩ : ∃ t, exec (.markAccepted start) s = .next t ∧ StarvedOutcome (emptied r.1) t := by
        rw [show (markRephase _).2 = true from raised] at order
        rcases order with e | e
        · exact ⟨_, e, (starvedOutcome_raiseStarved stays).emptied⟩
        · exact ⟨_, e, starvedOutcome_raiseStarved (s := emptied r.1) stays⟩
      obtain ⟨either, stands, trips⟩ := outcome
      have standing (h : Stands (emptied r.1) t) : t.station = .running ∧ t.carrier = r.1.carrier ∧ t.gate = r.1.gate ∧
          t.setpoint = r.1.setpoint ∧ t.change = { r.1.change with collection := [] } :=
        ⟨h.station, h.carrier, h.gate, h.setpoint, h.change⟩
      have tripped (h : StarvedOut (emptied r.1) t) : t.station = .tripped ∧ t.trip.first = some .starved ∧
          t.trip.drive = (rowOf r.1.tables .starved).drive ∧ t.gate = Gate.off ∧ t.carrier = Carrier.stopped ∧
          t.setpoint = SetpointUnit.empty ∧ t.change.view = 0 :=
        ⟨h.station, h.first, h.drive, h.gate, h.carrier, h.setpoint, h.view⟩
      rw [← tables, ← pending]
      exact ⟨t, e, either.imp standing tripped, fun h => standing (stands h), fun hr hp => tripped (trips hr hp)⟩

end Sys2Proof.Machine
end

section
/-! O35, O36. The advance of a COMPARE_CROSSING and the turn-on after the dead time (R109, R111, R112). -/

namespace Sys2Proof.Machine

/-! ## COMPARE_CROSSING -/

theorem exec_compareCrossing {s : State} (hp : s.pins.rstn = true) (position : Nat) :
    exec (.compareCrossing position) s = .next (crossingStep position s) := whilePowered_on _ hp

/-- A wait whose demand holds keeps its count through a judgement (R112). -/
theorem count_judgeLeg_of_waiting {wanted : Option Side} {l : LegState} {side : Side} (hw : wanted = some side)
    (off : gateOn l side = false) (waits : l.pending = some side) : (judgeLeg wanted l).count = l.count := by
  rw [(waits_judgeLeg hw off).2, if_pos waits]

/-- Where no gate that is demanded was waiting, the count after a judgement is 0 (R112). -/
theorem count_judgeLeg_of_not_waiting {wanted : Option Side} {l : LegState}
    (h : ∀ side, wanted = some side → gateOn l side = true ∨ l.pending ≠ some side) : (judgeLeg wanted l).count = 0 := by
  rw [count_judgeLeg]
  cases wanted with
  | none => rfl
  | some side => exact if_neg fun ⟨off, waits⟩ => (h side rfl).elim (by simp [off]) (absurd waits)

/-- Settles O35: an advance inside the period judges every leg under its demand at the new carrier value. -/
theorem compareCrossingJudgesLegs : Obligations.CompareCrossingJudgesLegs := by
  intro position s hp
  rw [exec_compareCrossing hp]
  refine ⟨fun hs running inside => ?_, fun h => ?_⟩
  · have advances : crossingStep position s = advanceTo position s := if_pos ⟨running, inside⟩
    have frame := advanceTo_eq position s
    have carrier := congrArg State.carrier frame
    refine ⟨advanceTo position s, congrArg Host.Outcome.next advances, carrier, fun leg => ?_,
      advanceTo_deadTime position s, carrier ▸ frame⟩
    intro l l' below wanted
    have judged : l' = judgeLeg (demand l.mode l.compare _) l := get_advanceTo hs position leg
    have demanded (side : Side) : wanted side ↔ demand l.mode l.compare _ = some side :=
      match side with
      | .upper => (demand_upper_iff l.mode l.compare _).symm
      | .lower => (demand_lower_iff l.mode l.compare _).symm
    clear_value wanted l'
    simp only [demanded, judged]
    refine ⟨mode_judgeLeg _ l, compare_judgeLeg _ l, fun side => ?_, pending_judgeLeg _ l,
      fun _ => count_judgeLeg_of_waiting, count_judgeLeg_of_not_waiting⟩
    rw [gateOn_judgeLeg, Bool.and_eq_true, decide_eq_true_eq]
  · have stays : ¬(s.carrier.running = true ∧ position < s.carrier.period) := fun ⟨running, inside⟩ =>
      h.elim (by simp [running]) (Nat.not_le_of_lt inside)
    exact congrArg Host.Outcome.next (if_neg stays)

/-! ## DEAD_TIME_ELAPSED -/

theorem exec_deadTimeElapsed {s : State} (hp : s.pins.rstn = true) (leg : Leg) (gate : Side) :
    exec (.deadTimeElapsed leg gate) s = .next (deadTimeStep leg gate s) := whilePowered_on _ hp

/-- A turn-on changes neither the mode nor the compare value of its leg (R112). -/
theorem turnOn_setting (l : LegState) : (turnOn l).mode = l.mode ∧ (turnOn l).compare = l.compare := by
  unfold turnOn; split <;> exact ⟨rfl, rfl⟩

theorem count_turnOn {l : LegState} {side : Side} (h : l.pending = some side) : (turnOn l).count = 0 := by
  unfold turnOn; rw [h]; cases side <;> rfl

/-- Settles O36: the wait that has reached the dead time turns its own gate on, and only the leg of that gate changes. -/
theorem deadTimeTurnsPendingGateOn : Obligations.DeadTimeTurnsPendingGateOn := by
  intro leg gate s hp l
  rw [exec_deadTimeElapsed hp]
  refine ⟨fun hs waits long => ?_, fun h => ?_⟩
  · have turned : (s.gate.legs.modify leg turnOn).get leg = turnOn l := by rw [get_modify, if_pos rfl]
    obtain ⟨mode, compare⟩ := turnOn_setting l
    refine ⟨{ s with gate := { s.gate with legs := s.gate.legs.modify leg turnOn } },
      congrArg Host.Outcome.next (if_pos ⟨hs, waits, long⟩), ?_⟩
    dsimp only
    rw [turned]
    refine ⟨?_, pending_turnOn l, count_turnOn waits, mode, compare, fun side other => ?_, fun leg' other => ?_, rfl, rfl⟩
    · simp [gateOn_turnOn waits]
    · simp [gateOn_turnOn waits, other]
    · rw [get_modify, if_neg other]
  · have stays : ¬(s.station = .running ∧ l.pending = some gate ∧ s.gate.deadTime ≤ l.count) := fun ⟨hs, waits, long⟩ =>
      h.elim (absurd hs) fun h => h.elim (absurd waits) (Nat.not_lt_of_le long)
    exact congrArg Host.Outcome.next (if_neg stays)

end Sys2Proof.Machine
end

section
/-! SUPPORT. What the laws of the queues, the record and the tables rest on: all that a TWRITE writes (R152, R168), what the claim
of an application makes of the setpoints (R64, R127), and a step that keeps what every elementary update keeps. -/

namespace Sys2Proof.Machine

/-! ## TWRITE (R152, R168) -/

/-- The second tables are the first ones with one entry written, and what the checks of a TWRITE let into it is in its range (R152,
R154 to R157). -/
inductive EntryStored (t : Tables) : Tables → Prop
  | link {l : LinkTable} (range : linkInRange l) : EntryStored t { t with link := l }
  | profile {i : Nat} {p : Profile} (host : 1 ≤ i ∧ i < 8) (range : profileInRange p) :
    EntryStored t { t with profiles := t.profiles.set i p host.2 }
  | cause {i : Nat} {r : CauseRow} (index : i < 9) (allowed : rowAllowed ⟨i, index⟩ r) :
    EntryStored t { t with causes := t.causes.set i r index }
  | pattern {i : Nat} {e : PerLeg LegSetting} (index : i < 64) : EntryStored t { t with pattern := t.pattern.set i e index }

/-- State `t` is what a TWRITE may leave of state `s`: RESULT, the tables and the filters are all that it writes, and it writes
tables that are not frozen alone (R168). -/
structure TableWrite (s t : State) : Prop where
  rest : t = { s with
    host := { s.host with result := t.host.result, detail := t.host.detail }
    tables := t.tables
    trip := { s.trip with faults := t.trip.faults, tripLine := t.trip.tripLine } }
  tables : t.tables = s.tables ∨ s.tables.frozen = false ∧ EntryStored s.tables t.tables

theorem tableWrite_refused (code : ResultCode) (detail : Byte) (s : State) : TableWrite s (setResult code detail s) :=
  ⟨rfl, .inl rfl⟩

section
variable {s : State} {α : Type} {read : Except Nat α} {store : α → Tables}
  (stored : ∀ a, read = .ok a → EntryStored s.tables (store a))
include stored

/-- Checks 3 to 5: the freeze, the fields, the write (R168). `after` is what the write does at once (R152). -/
theorem tableWrite_writeEntry {after : State → State}
    (filters : ∀ u : State, ∃ f l, after u = { u with trip := { u.trip with faults := f, tripLine := l } }) :
    TableWrite s (writeEntry s (read.map store) after) := by
  unfold writeEntry
  split
  · exact tableWrite_refused ..
  · rename_i thawed
    cases read with
    | error field => exact tableWrite_refused ..
    | ok a =>
      obtain ⟨f, l, e⟩ := filters { s with tables := store a }
      show TableWrite s (setResult .done 0 (after { s with tables := store a }))
      rw [e]
      exact ⟨rfl, .inr ⟨by simpa using thawed, stored a rfl⟩⟩

end

/-- Every TWRITE is one: the tables that it knows, and the refusals of other selects and indices (R168). -/
theorem tableWrite_twriteStep (s : State) : TableWrite s (twriteStep s) := by
  have refused := fun d => tableWrite_refused .refusedRange d s
  unfold twriteStep refuseIndex; dsimp only
  split
  · split
    · exact tableWrite_writeEntry (fun l h => .link (linkOf_range h)) fun _ => ⟨_, _, rfl⟩
    · exact refused _
  · split
    · rename_i host
      exact tableWrite_writeEntry (fun p h => .profile host (profileOf_range h)) fun _ => ⟨_, _, rfl⟩
    · exact refused _
  · split
    · rename_i index
      exact tableWrite_writeEntry (fun r h => .cause index (causeOf_range h)) fun _ => ⟨_, _, rfl⟩
    · exact refused _
  · split
    · rename_i index
      exact tableWrite_writeEntry (fun e _ => .pattern index) fun _ => ⟨_, _, rfl⟩
    · exact refused _
  · exact refused _

/-! ## The claim of an application (R64, R127) -/

/-- A station outside the new set is JOINED after the claim; its setpoints are reset, and its queue is kept or cleared (R127). -/
theorem applyClaim_outside (c : Slot) {s : State} (hm : member s.number c.newSet = false) :
    (applyClaim c s).1.station = .joined ∧ (applyClaim c s).1.trip = s.trip ∧
      ∃ q, (q = [] ∨ q = s.setpoint.queue) ∧ (applyClaim c s).1.setpoint = { SetpointUnit.empty with queue := q } := by
  unfold applyClaim stateAfter; dsimp only; rw [hm]
  cases s.station <;>
    first
    | exact ⟨rfl, rfl, [], .inl rfl, rfl⟩
    | exact ⟨rfl, rfl, _, .inr rfl, rfl⟩

/-- No claim touches the trip record, and none leaves the station TRIPPED. -/
theorem applyClaim_keeps_record (c : Slot) (s : State) :
    (applyClaim c s).1.trip = s.trip ∧ (applyClaim c s).1.station ≠ .tripped := by
  cases hm : member s.number c.newSet with
  | true =>
    obtain ⟨_, -, _, _, e, -⟩ := applyClaim_running c s hm
    rw [e]; exact ⟨rfl, nofun⟩
  | false =>
    obtain ⟨station, trip, -⟩ := applyClaim_outside c hm
    rw [station]; exact ⟨trip, nofun⟩

/-! ## A step -/

/-- A property that every elementary update keeps, and the four updates of their own, is kept by every step. -/
theorem Kept.step {P : State → Prop} (K : Kept P)
    (power : ∀ number pins free pending, P (State.powerOn number pins free pending))
    (join : ∀ s, P s → s.station = .offline → P (enterListening s)) (write : ∀ s, P s → P (twriteStep s))
    (apply : KeptByApply P) {s t : State} (h : P s) (hs : step s = .next t) : P t := by
  unfold Machine.step at hs
  split at hs
  · injection hs with hs
    rw [← hs]; exact K.idle h
  · rename_i c rest _
    refine K.exec (s := { s with pending := rest }) (K.pending _ _ h) hs ?_ (fun _ u hu ho _ => join u hu ho)
      (fun _ => write) fun _ => apply
    rintro ids rfl
    injection hs with hs
    rw [← hs]; exact power _ _ _ _

end Sys2Proof.Machine
end

section
/-! O5. Every step keeps the bounds of the queues and the law of the trip record (R119, R131, R140, R169). -/

namespace Sys2Proof.Machine

/-! ## The bounds of the queues (R119, R169) -/

/-- Reports posted one after the other never take the queue above 16 entries (R169). -/
theorem length_postAll_le (l : List Report) {queue : List Report} (h : queue.length ≤ 16) : (postAll l queue).length ≤ 16 := by
  induction l generalizing queue with
  | nil => exact h
  | cons r rest ih => exact ih (length_arrive_le h r)

section
variable {s t : State} (h : QueuesBounded s)
include h

/-- An update of neither queue. -/
theorem QueuesBounded.congr (reports : t.host.reports = s.host.reports) (setpoints : t.setpoint.queue = s.setpoint.queue) :
    QueuesBounded t :=
  ⟨reports ▸ h.reports, setpoints ▸ h.setpoints⟩

/-- Reports are posted, and the setpoint queue grows no longer. -/
theorem QueuesBounded.posted {l : List Report} (reports : t.host.reports = postAll l s.host.reports)
    (setpoints : t.setpoint.queue.length ≤ s.setpoint.queue.length) : QueuesBounded t where
  reports := by rw [reports]; exact length_postAll_le l h.reports
  setpoints := setpoints.trans h.setpoints

/-- A load takes records from the queue, and posts what it discards and starves (R124, R125). -/
theorem QueuesBounded.load : QueuesBounded (load s).1 := by
  obtain ⟨l, -, e⟩ := load_eq s
  exact h.posted (l := l) (by rw [e]) (load_queue_length s)

/-- The claim of an application keeps the queue, loads from it or clears it (R127). -/
theorem QueuesBounded.claimed (c : Slot) : QueuesBounded (applyClaim c s).1 := by
  obtain ⟨l, reports⟩ := (steady_applyClaim c s).posts
  refine h.posted reports ?_
  cases hm : member s.number c.newSet with
  | true => rw [applyClaim_setpoint hm]; exact load_queue_length (claiming c s)
  | false =>
    obtain ⟨-, -, q, rfl | rfl, e⟩ := applyClaim_outside c hm
    · rw [e]; exact Nat.zero_le _
    · rw [e]

end

theorem kept_queuesBounded : Kept QueuesBounded where
  host _ _ h bound := ⟨bound h.reports, h.setpoints⟩
  free _ _ h := h.congr rfl rfl
  pins _ _ h := h.congr rfl rfl
  pending _ _ h := h.congr rfl rfl
  now _ _ h := h.congr rfl rfl
  wires _ _ _ h := h.congr rfl rfl
  trip _ _ h _ _ _ _ _ := h.congr rfl rfl
  settle _ h _ := h.congr rfl rfl
  added _ _ _ h _ := h.congr rfl rfl
  cleared _ h _ := h.congr rfl rfl
  tripped _ _ _ _ _ h _ := by rw [tripEntry_eq]; exact h.posted rfl (Nat.zero_le _)
  withdrawn _ h := ⟨h.reports, Nat.zero_le _⟩
  joined _ _ _ h _ := h.congr rfl rfl
  vacated _ h := h.congr rfl rfl
  drop _ h _ := h.congr rfl rfl
  proposed _ _ _ h _ _ _ _ := h.congr rfl rfl
  adopted _ _ _ h _ _ _ _ _ := h.congr rfl rfl
  sent _ _ _ h _ _ := h.congr rfl rfl
  counted _ _ h _ := h.congr rfl rfl
  judged _ h := h.congr rfl rfl
  collect _ _ h _ _ _ := h.congr rfl rfl
  emptied _ h := h.congr rfl rfl
  discord _ _ h _ := h.congr rfl rfl
  hold _ _ h _ := h.congr rfl rfl
  pair _ _ h _ _ _ _ := h.congr rfl rfl
  entry _ _ _ h _ _ _ := h.congr rfl rfl
  judgeLost _ _ h _ := h.congr rfl rfl
  mismatch _ _ h _ := h.congr rfl rfl
  advance _ _ h _ _ := h.congr rfl rfl
  unmarked _ h := h.congr rfl rfl
  gates _ _ h _ _ := h.congr rfl rfl
  counts _ h := h.congr rfl rfl
  load _ h _ := h.load
  queue _ _ h bound := ⟨h.reports, bound h.setpoints⟩

theorem keptByApply_queuesBounded : KeptByApply QueuesBounded := fun s h _ _ =>
  (kept_queuesBounded.closeSlot .applied s.change.slot.proposer .noReason (h.claimed s.change.slot)).congr rfl rfl

theorem queuesBounded_step {s t : State} (h : QueuesBounded s) (hs : step s = .next t) : QueuesBounded t :=
  kept_queuesBounded.step (fun _ _ _ _ => ⟨Nat.zero_le _, Nat.zero_le _⟩) (fun _ hu _ => hu.congr rfl rfl)
    (fun u hu => by rw [(tableWrite_twriteStep u).rest]; exact hu.congr rfl rfl) keptByApply_queuesBounded h hs

/-! ## The law of the trip record (R131, R140) -/

/-- What the law reads of the trip record. -/
structure SameRecord (a b : TripUnit) : Prop where
  first : b.first = a.first
  causes : b.causes = a.causes
  entry : b.entry = a.entry
  drive : b.drive = a.drive

/-- Outside TRIPPED the law asks for a clear record (R131, R140). -/
theorem recordLaw_untripped {s : State} (station : s.station ≠ .tripped)
    (clear : s.trip.first = none ∧ s.trip.causes = 0 ∧ s.trip.entry = 0 ∧ s.trip.drive = false ∧ s.trip.settling = false) :
    RecordLaw s where
  clear _ := clear
  tripped h := absurd h station

/-- In TRIPPED it asks for a first cause in the cause set (R131). -/
theorem recordLaw_tripped {s : State} {c : Cause} (station : s.station = .tripped) (first : s.trip.first = some c)
    (set : hasCause c s.trip.causes = true) : RecordLaw s where
  clear h := absurd station h
  tripped _ := ⟨c, first, set⟩

theorem hasCause_causeBit (c : Cause) : hasCause c (causeBit c) = true := by
  simp [hasCause, causeBit]

theorem hasCause_or {c : Cause} {a : BitVec 9} (b : BitVec 9) (h : hasCause c a = true) : hasCause c (a ||| b) = true := by
  simp_all [hasCause]

section
variable {s t : State} (h : RecordLaw s)
include h

/-- An update of nothing that the law reads. -/
theorem RecordLaw.congr (station : t.station = s.station) (trip : t.trip = s.trip) : RecordLaw t := by
  obtain ⟨clear, tripped⟩ := h
  constructor <;> simp only [station, trip] <;> assumption

/-- A station moves between states other than TRIPPED, and its record stays clear. -/
theorem RecordLaw.moves (before : s.station ≠ .tripped) (after : t.station ≠ .tripped) (trip : t.trip = s.trip) :
    RecordLaw t :=
  recordLaw_untripped after (by rw [trip]; exact h.clear before)

/-- The record stands, and no settle begins. -/
theorem RecordLaw.settles (station : t.station = s.station) (same : SameRecord s.trip t.trip)
    (settling : t.trip.settling = true → s.trip.settling = true) : RecordLaw t := by
  by_cases tripped : s.station = .tripped
  · obtain ⟨c, first, set⟩ := h.tripped tripped
    exact recordLaw_tripped (station.trans tripped) (same.first.trans first) (by rw [same.causes]; exact set)
  · obtain ⟨first, causes, entry, drive, quiet⟩ := h.clear tripped
    refine recordLaw_untripped (by rwa [station]) ⟨same.first.trans first, same.causes.trans causes, same.entry.trans entry,
      same.drive.trans drive, Bool.eq_false_iff.2 fun on => ?_⟩
    rw [settling on] at quiet; cases quiet

/-- In TRIPPED the first cause stays, and the cause set only grows. -/
theorem RecordLaw.grows {r : TripUnit} (station : s.station = .tripped) (first : r.first = s.trip.first)
    (set : ∀ c, hasCause c s.trip.causes = true → hasCause c r.causes = true) : RecordLaw { s with trip := r } := by
  obtain ⟨c, hf, hc⟩ := h.tripped station
  exact recordLaw_tripped station (first.trans hf) (set c hc)

end

theorem kept_recordLaw : Kept RecordLaw where
  host _ _ h _ := h.congr rfl rfl
  free _ _ h := h.congr rfl rfl
  pins _ _ h := h.congr rfl rfl
  pending _ _ h := h.congr rfl rfl
  now _ _ h := h.congr rfl rfl
  wires _ _ _ h := h.congr rfl rfl
  trip _ _ h first causes entry drive settling := h.settles rfl ⟨first, causes, entry, drive⟩ settling
  settle _ h ht := h.grows ht rfl fun _ => id
  added _ _ _ h ht := h.grows ht rfl fun _ => hasCause_or _
  cleared _ _ _ := recordLaw_untripped nofun ⟨rfl, rfl, rfl, rfl, rfl⟩
  tripped _ c _ _ _ _ _ := by
    rw [tripEntry_eq]; exact recordLaw_tripped rfl rfl (hasCause_causeBit c)
  withdrawn _ _ := recordLaw_untripped nofun ⟨rfl, rfl, rfl, rfl, rfl⟩
  joined _ _ _ h hs := h.moves (by simp [hs]) nofun rfl
  vacated _ h := h.congr rfl rfl
  drop _ h _ := h.congr rfl rfl
  proposed _ _ _ h _ _ _ _ := h.congr rfl rfl
  adopted _ _ _ h _ _ _ _ _ := h.congr rfl rfl
  sent _ _ _ h _ _ := h.congr rfl rfl
  counted _ _ h _ := h.congr rfl rfl
  judged _ h := h.congr rfl rfl
  collect _ _ h _ _ _ := h.congr rfl rfl
  emptied _ h := h.congr rfl rfl
  discord _ _ h _ := h.congr rfl rfl
  hold _ _ h _ := h.congr rfl rfl
  pair _ _ h _ _ _ _ := h.congr rfl rfl
  entry _ _ _ h _ _ _ := h.congr rfl rfl
  judgeLost _ _ h _ := h.congr rfl rfl
  mismatch _ _ h _ := h.congr rfl rfl
  advance _ _ h _ _ := h.congr rfl rfl
  unmarked _ h := h.congr rfl rfl
  gates _ _ h _ _ := h.congr rfl rfl
  counts _ h := h.congr rfl rfl
  load s h _ := by
    obtain ⟨_, -, e⟩ := load_eq s
    rw [e]; exact h.congr rfl rfl
  queue _ _ h _ := h.congr rfl rfl

/-- An application moves a station between JOINED and RUNNING (R64). -/
theorem keptByApply_recordLaw : KeptByApply RecordLaw := fun s h hg _ =>
  have ⟨trip, station⟩ := applyClaim_keeps_record s.change.slot s
  h.moves (by rcases state_of_inGroup hg with e | e <;> simp [e]) station trip

theorem recordLaw_step {s t : State} (h : RecordLaw s) (hs : step s = .next t) : RecordLaw t :=
  kept_recordLaw.step (fun _ _ _ _ => recordLaw_untripped nofun ⟨rfl, rfl, rfl, rfl, rfl⟩)
    (fun _ hu ho => hu.moves (by simp [ho]) nofun rfl)
    (fun u hu => by rw [(tableWrite_twriteStep u).rest]; exact hu.settles rfl ⟨rfl, rfl, rfl, rfl⟩ id)
    keptByApply_recordLaw h hs

/-- Settles O5: every elementary update keeps both; loads take records, a trip entry sets the record, and all that leaves TRIPPED
clears it. -/
theorem stepKeepsBoundsAndRecord : Obligations.StepKeepsBoundsAndRecord :=
  ⟨fun _ _ => queuesBounded_step, fun _ _ => recordLaw_step⟩

end Sys2Proof.Machine
end

section
/-! O8. Every step keeps the law of the tables (R125, R134, R150 to R156). -/

namespace Sys2Proof.Machine

/-! ## The starve count (R125) -/

/-- The count does not pass the limit. -/
theorem starveNext_le {limit count : Nat} (h : count ≤ limit) : starveNext limit count ≤ limit := by
  unfold starveNext; split <;> omega

/-- A load keeps the count at or below the limit: it advances, starts anew or stands (R125, R126). -/
theorem load_starve_le {s : State} (h : s.setpoint.starve ≤ s.tables.link.starveLimit) :
    (load s).1.setpoint.starve ≤ s.tables.link.starveLimit := by
  cases source : (liveProfile s).source with
  | queue =>
    rw [load_queue source]
    cases left : fresh s.change.profile s.setpoint.queue with
    | nil => rw [(queueLoad_starves left).1]; exact starveNext_le h
    | cons r rest => rw [(queueLoad_takes left).1]; exact Nat.zero_le _
  | pattern =>
    rw [load_pattern source]
    unfold patternLoad; dsimp only; repeat' split
    all_goals exact h

/-! ## What keeps the law -/

section
variable {s t : State} (h : TableLaw s)
include h

/-- The tables stand, and the station keeps to OFFLINE or to the other states; the count is in its bounds. -/
theorem TableLaw.moves (offline : t.station = .offline ↔ s.station = .offline) (tables : t.tables = s.tables)
    (starve : t.setpoint.starve ≤ s.tables.link.starveLimit) (idle : t.station ≠ .running → t.setpoint.starve = 0) :
    TableLaw t where
  link := by rw [tables]; exact h.link
  profiles := by rw [tables]; exact h.profiles
  parked := by rw [tables]; exact h.parked
  causes := by rw [tables]; exact h.causes
  frozen := by rw [tables, h.frozen, Ne, Ne, offline]
  starve := by rw [tables]; exact starve
  idle := idle

/-- An update of nothing that the law reads. -/
theorem TableLaw.congr (station : t.station = s.station) (tables : t.tables = s.tables)
    (starve : t.setpoint.starve = s.setpoint.starve) : TableLaw t :=
  h.moves (by rw [station]) tables (starve ▸ h.starve) (by rw [station, starve]; exact h.idle)

/-- A move between states on the link with the count at 0. -/
theorem TableLaw.awake (before : s.station ≠ .offline) (after : t.station ≠ .offline) (tables : t.tables = s.tables)
    (starve : t.setpoint.starve = 0) : TableLaw t :=
  h.moves (iff_of_false after before) tables (starve ▸ Nat.zero_le _) fun _ => starve

/-- The freeze follows the station out of OFFLINE and back into it, with the count at 0 (R79, R89, R150). -/
theorem TableLaw.refrozen (frozen : t.tables.frozen = true ↔ t.station ≠ .offline)
    (tables : t.tables = { s.tables with frozen := t.tables.frozen }) (starve : t.setpoint.starve = 0) : TableLaw t where
  link := by rw [tables]; exact h.link
  profiles := by rw [tables]; exact h.profiles
  parked := by rw [tables]; exact h.parked
  causes := by rw [tables]; exact h.causes
  frozen := frozen
  starve := starve ▸ Nat.zero_le _
  idle _ := starve

/-- A write of one entry in OFFLINE, where nothing starves: the entry is in range, and PROFILE 0 is none that the host writes (R154,
R168). -/
theorem TableLaw.stored {u : Tables} (offline : s.station = .offline) (stored : EntryStored s.tables u) :
    TableLaw { s with tables := u } := by
  have starve : s.setpoint.starve = 0 := h.idle (by simp [offline])
  cases stored with
  | link range => exact { h with link := range, starve := starve ▸ Nat.zero_le _ }
  | @profile i p host range =>
    refine { h with profiles := fun j => ?_, parked := ?_ }
    · simp only [Fin.getElem_fin, Vector.getElem_set]
      split
      · exact range
      · exact h.profiles j
    · have other : i ≠ 0 := Nat.ne_of_gt host.1
      exact (Vector.getElem_set_ne host.2 _ other).trans h.parked
  | @cause i r index allowed =>
    refine { h with causes := fun j => ?_ }
    simp only [Fin.getElem_fin, Vector.getElem_set]
    split
    · rename_i e
      rwa [show j = ⟨i, index⟩ from Fin.ext e.symm]
    · exact h.causes j
  | pattern => exact { h with }

/-- A TWRITE stores nothing while the tables are frozen, which they are outside OFFLINE (R150, R168). -/
theorem TableLaw.written : TableLaw (twriteStep s) := by
  obtain ⟨rest, tables⟩ := tableWrite_twriteStep s
  have held : TableLaw { s with tables := (twriteStep s).tables } := by
    rcases tables with e | ⟨thawed, entry⟩
    · rw [e]; exact h
    · refine h.stored ?_ entry
      by_contra away
      rw [h.frozen.2 away] at thawed; cases thawed
  rw [rest]; exact held.congr rfl rfl rfl

/-- The claim of an application resets the count, and its immediate load starves once at most (R125, R127). -/
theorem TableLaw.claimed (hg : inGroup s = true) (c : Slot) : TableLaw (applyClaim c s).1 := by
  have awake := not_offline_of_inGroup hg
  have after := (applyClaim_claims c s).1
  have tables := (steady_applyClaim c s).tables
  cases hm : member s.number c.newSet with
  | true =>
    refine h.moves (iff_of_false after awake) tables ?_ fun away => ?_
    · rw [applyClaim_setpoint hm]
      exact load_starve_le (s := claiming c s) (Nat.zero_le _)
    · obtain ⟨_, -, _, _, e, -⟩ := applyClaim_running c s hm
      exact absurd (by rw [e]) away
  | false =>
    obtain ⟨-, -, q, -, setpoint⟩ := applyClaim_outside c hm
    exact h.awake awake after tables (by rw [setpoint]; rfl)

end

/-! ## Every elementary update, beside the law of the outputs -/

/-- The law of the tables, together with the law of the outputs, which has loads made in RUNNING alone. -/
structure Supplied (s : State) : Prop where
  outputs : OutputLaw s
  tables : TableLaw s

theorem kept_supplied : Kept Supplied :=
  have K := kept_outputLaw
  { host := fun _ _ h b => ⟨K.host _ _ h.outputs b, h.tables.congr rfl rfl rfl⟩
    free := fun _ _ h => ⟨K.free _ _ h.outputs, h.tables.congr rfl rfl rfl⟩
    pins := fun _ _ h => ⟨K.pins _ _ h.outputs, h.tables.congr rfl rfl rfl⟩
    pending := fun _ _ h => ⟨K.pending _ _ h.outputs, h.tables.congr rfl rfl rfl⟩
    now := fun _ _ h => ⟨K.now _ _ h.outputs, h.tables.congr rfl rfl rfl⟩
    wires := fun _ _ _ h => ⟨K.wires _ _ _ h.outputs, h.tables.congr rfl rfl rfl⟩
    trip := fun _ _ h a b c d e => ⟨K.trip _ _ h.outputs a b c d e, h.tables.congr rfl rfl rfl⟩
    settle := fun _ h a => ⟨K.settle _ h.outputs a, h.tables.congr rfl rfl rfl⟩
    added := fun _ _ _ h a => ⟨K.added _ _ _ h.outputs a, h.tables.congr rfl rfl rfl⟩
    cleared := fun _ h a => ⟨K.cleared _ h.outputs a, h.tables.awake (by simp [a]) nofun rfl (h.tables.idle (by simp [a]))⟩
    tripped := fun s c d x k h a => ⟨K.tripped _ _ _ _ _ h.outputs a, by
      rw [tripEntry_eq]; exact h.tables.awake (not_offline_of_inGroup a) nofun rfl rfl⟩
    withdrawn := fun _ h => ⟨K.withdrawn _ h.outputs, h.tables.refrozen (iff_of_false nofun fun away => away rfl) rfl rfl⟩
    joined := fun _ _ _ h a =>
      ⟨K.joined _ _ _ h.outputs a, h.tables.awake (by simp [a]) nofun rfl (h.tables.idle (by simp [a]))⟩
    vacated := fun _ h => ⟨K.vacated _ h.outputs, h.tables.congr rfl rfl rfl⟩
    drop := fun _ h a => ⟨K.drop _ h.outputs a, h.tables.congr rfl rfl rfl⟩
    proposed := fun _ _ _ h a b c d => ⟨K.proposed _ _ _ h.outputs a b c d, h.tables.congr rfl rfl rfl⟩
    adopted := fun _ _ _ h a b c d e => ⟨K.adopted _ _ _ h.outputs a b c d e, h.tables.congr rfl rfl rfl⟩
    sent := fun _ _ _ h a b => ⟨K.sent _ _ _ h.outputs a b, h.tables.congr rfl rfl rfl⟩
    counted := fun _ _ h a => ⟨K.counted _ _ h.outputs a, h.tables.congr rfl rfl rfl⟩
    judged := fun _ h => ⟨K.judged _ h.outputs, h.tables.congr rfl rfl rfl⟩
    collect := fun _ _ h a b c => ⟨K.collect _ _ h.outputs a b c, h.tables.congr rfl rfl rfl⟩
    emptied := fun _ h => ⟨K.emptied _ h.outputs, h.tables.congr rfl rfl rfl⟩
    discord := fun _ _ h a => ⟨K.discord _ _ h.outputs a, h.tables.congr rfl rfl rfl⟩
    hold := fun _ _ h a => ⟨K.hold _ _ h.outputs a, h.tables.congr rfl rfl rfl⟩
    pair := fun _ _ h a b c d => ⟨K.pair _ _ h.outputs a b c d, h.tables.congr rfl rfl rfl⟩
    entry := fun _ _ _ h a b c => ⟨K.entry _ _ _ h.outputs a b c, h.tables.congr rfl rfl rfl⟩
    judgeLost := fun _ _ h a => ⟨K.judgeLost _ _ h.outputs a, h.tables.congr rfl rfl rfl⟩
    mismatch := fun _ _ h a => ⟨K.mismatch _ _ h.outputs a, h.tables.congr rfl rfl rfl⟩
    advance := fun _ _ h a b => ⟨K.advance _ _ h.outputs a b, h.tables.congr rfl rfl rfl⟩
    unmarked := fun _ h => ⟨K.unmarked _ h.outputs, h.tables.congr rfl rfl rfl⟩
    gates := fun _ _ h a b => ⟨K.gates _ _ h.outputs a b, h.tables.congr rfl rfl rfl⟩
    counts := fun _ h => ⟨K.counts _ h.outputs, h.tables.congr rfl rfl rfl⟩
    load := fun s h runs => by
      obtain ⟨_, -, e⟩ := load_eq s
      refine ⟨K.load _ h.outputs runs, h.tables.moves (by rw [e]) (by rw [e]) (load_starve_le h.tables.starve) fun away => ?_⟩
      exact absurd (h.outputs.running_of_carrier runs) (by rwa [e] at away)
    queue := fun _ _ h a => ⟨K.queue _ _ h.outputs a, h.tables.congr rfl rfl rfl⟩ }

theorem keptByApply_supplied : KeptByApply Supplied := fun s h hg ha =>
  ⟨keptByApply_outputLaw s h.outputs hg ha, (h.tables.claimed hg s.change.slot).congr rfl rfl rfl⟩

/-- POWER_ON gives the tables their defaults, as the reset does (R91). -/
theorem tableLaw_powerOn (number : StationNo) (pins : Pins) (free : Nat) (pending : List Instr) :
    TableLaw (State.powerOn number pins free pending) := tableLaw_reset.congr rfl rfl rfl

theorem supplied_step {s t : State} (h : Supplied s) (hs : step s = .next t) : Supplied t :=
  kept_supplied.step (fun _ _ _ _ => ⟨outputLaw_forcedOff nofun rfl rfl, tableLaw_powerOn _ _ _ _⟩)
    (fun _ hu ho => ⟨hu.outputs.moves (by simp [ho]) nofun rfl rfl,
      hu.tables.refrozen (iff_of_true rfl nofun) rfl (hu.tables.idle (by simp [ho]))⟩)
    (fun u hu =>
      have ⟨station, gate, carrier⟩ := outputs_twriteStep u
      ⟨hu.outputs.congr station gate carrier, hu.tables.written⟩)
    keptByApply_supplied h hs

/-- Settles O8: every elementary update keeps the law, a load because the outputs run in RUNNING alone, and a TWRITE because the
tables are frozen outside OFFLINE. -/
theorem stepKeepsTableLaw : Obligations.StepKeepsTableLaw := fun _ _ outputs tables hs =>
  (supplied_step ⟨outputs, tables⟩ hs).tables

end Sys2Proof.Machine
end

section
/-! PUSH (O29) and FLUSH (O30). -/

namespace Sys2Proof.Machine

/-! ## The arguments of a PUSH (R119, R120, R164) -/

/-- The profile tag is the high nibble of ARG1 (R164). -/
theorem toNat_pushTag (args : Vector Byte 8) : (pushTag args).toNat = args[1].toNat / 16 := by
  have := args[1].isLt
  unfold pushTag; rw [toNat_extract]; omega

/-- As a profile number the tag keeps its three low bits (R154). -/
theorem pushTag_profile (args : Vector Byte 8) : (pushTag args).setWidth 3 = BitVec.ofNat 3 (args[1].toNat / 16) := by
  apply BitVec.eq_of_toNat_eq
  rw [BitVec.toNat_setWidth, BitVec.toNat_ofNat, toNat_pushTag]

/-- As a detail byte it is shown whole (R120). -/
theorem pushTag_detail (args : Vector Byte 8) : (pushTag args).setWidth 8 = natByte (args[1].toNat / 16) := by
  apply BitVec.eq_of_toNat_eq
  rw [BitVec.toNat_setWidth, natByte, BitVec.toNat_ofNat, toNat_pushTag]

/-- The tag is that of a configured profile (R120, check 2). -/
theorem tagUnfit_false_iff (t : Tables) (tag : BitVec 4) : tagUnfit t tag = false ↔
    1 ≤ tag.toNat ∧ tag.toNat ≤ 7 ∧ (profileAt t (tag.setWidth 3)).configured = true := by
  have low : tag ≠ 0 ↔ 1 ≤ tag.toNat := by rw [Ne, ← BitVec.toNat_inj]; exact Nat.pos_iff_ne_zero.symm
  have high : ¬7#4 < tag ↔ tag.toNat ≤ 7 := by rw [BitVec.lt_def]; exact Nat.not_lt
  simp [tagUnfit, ← low, ← high, and_assoc]

/-- The mode codes of the three legs as numbers: the nibbles of ARG0, then the low nibble of ARG1 (R164). -/
def modeNumbers (args : Vector Byte 8) : PerLeg Nat :=
  { a := args[0].toNat % 16, b := args[0].toNat / 16, c := args[1].toNat % 16 }

/-- The compare values of the three legs as numbers, low bytes first (R164). -/
def compareNumbers (args : Vector Byte 8) : PerLeg Nat :=
  { a := args[2].toNat + 256 * args[3].toNat, b := args[4].toNat + 256 * args[5].toNat,
    c := args[6].toNat + 256 * args[7].toNat }

theorem toNat_legFields (args : Vector Byte 8) (leg : Leg) :
    ((legFields args).get leg).1.toNat = (modeNumbers args).get leg ∧
      ((legFields args).get leg).2.toNat = (compareNumbers args).get leg := by
  have low : ∀ b : Byte, (b.extractLsb' 0 4).toNat = b.toNat % 16 := fun b => by rw [toNat_extract]; omega
  have high : ∀ b : Byte, (b.extractLsb' 4 4).toNat = b.toNat / 16 := fun b => by
    have := b.isLt
    rw [toNat_extract]; omega
  cases leg
  · exact ⟨low _, toNat_wordOf _ _⟩
  · exact ⟨high _, toNat_wordOf _ _⟩
  · exact ⟨low _, toNat_wordOf _ _⟩

/-! ## The settings of a PUSH (R120, checks 2 and 3) -/

/-- The check of one leg's field: its code names a mode and its compare value is at most `top`. -/
def checkField (top : Nat) (field : BitVec 4 × Word16) : Option LegSetting :=
  if field.2.toNat ≤ top then legSetting field else none

theorem legSettings_eq (top : Nat) (fields : PerLeg (BitVec 4 × Word16)) : legSettings top fields =
    match checkField top fields.a, checkField top fields.b, checkField top fields.c with
    | none, _, _ => .error 0
    | some _, none, _ => .error 1
    | some _, some _, none => .error 2
    | some a, some b, some c => .ok { a := a, b := b, c := c } := by
  unfold legSettings
  show (match checkField top fields.a with
    | none => _
    | some a => match checkField top fields.b with
      | none => _
      | some b => match checkField top fields.c with
        | none => _
        | some c => _) = _
  cases checkField top fields.a with
  | none => rfl
  | some a =>
    cases checkField top fields.b with
    | none => rfl
    | some b => cases checkField top fields.c <;> rfl

/-- The codes 0 to 3 name the modes (R164). -/
theorem checkField_eq_none (top : Nat) (field : BitVec 4 × Word16) :
    checkField top field = none ↔ ¬(field.1.toNat ≤ 3 ∧ field.2.toNat ≤ top) := by
  have named : (legSetting field).isSome = decide (field.1.toNat ≤ 3) := by
    rw [← modeOf_isSome, legSetting, Option.isSome_map]
  unfold checkField
  split
  · rename_i inRange
    rw [← Option.not_isSome_iff_eq_none, named, decide_eq_true_eq, and_iff_left inRange]
  · rename_i above
    simp [above]

theorem checkField_eq_some {top : Nat} {field : BitVec 4 × Word16} {setting : LegSetting}
    (h : checkField top field = some setting) : modeCode setting.mode = field.1 ∧ setting.compare = field.2 := by
  unfold checkField at h
  split at h
  · obtain ⟨mode, compare⟩ := legSetting_eq_some.1 h
    exact ⟨modeCode_of_modeOf mode, compare⟩
  · cases h

section
variable {top : Nat} {fields : PerLeg (BitVec 4 × Word16)}

/-- A leg's field names a mode, with a compare value in range. -/
def LegFits (top : Nat) (fields : PerLeg (BitVec 4 × Word16)) (leg : Leg) : Prop :=
  (fields.get leg).1.toNat ≤ 3 ∧ (fields.get leg).2.toNat ≤ top

theorem LegFits.checked {leg : Leg} (h : LegFits top fields leg) : ∃ x, checkField top (fields.get leg) = some x :=
  Option.ne_none_iff_exists'.1 fun e => (checkField_eq_none _ _).1 e h

theorem legSettings_error_a (ha : ¬LegFits top fields .a) : legSettings top fields = .error 0 := by
  rw [legSettings_eq, (checkField_eq_none top fields.a).2 ha]

theorem legSettings_error_b (ha : LegFits top fields .a) (hb : ¬LegFits top fields .b) :
    legSettings top fields = .error 1 := by
  obtain ⟨_, a⟩ := ha.checked
  rw [legSettings_eq, show checkField top fields.a = _ from a, (checkField_eq_none top fields.b).2 hb]

theorem legSettings_error_c (ha : LegFits top fields .a) (hb : LegFits top fields .b) (hc : ¬LegFits top fields .c) :
    legSettings top fields = .error 2 := by
  obtain ⟨_, a⟩ := ha.checked
  obtain ⟨_, b⟩ := hb.checked
  rw [legSettings_eq, show checkField top fields.a = _ from a, show checkField top fields.b = _ from b,
    (checkField_eq_none top fields.c).2 hc]

/-- Three fields that fit give the settings they spell. -/
theorem legSettings_ok (h : ∀ leg, LegFits top fields leg) : ∃ legs, legSettings top fields = .ok legs ∧
    ∀ leg, modeCode (legs.get leg).mode = (fields.get leg).1 ∧ (legs.get leg).compare = (fields.get leg).2 := by
  obtain ⟨x, a⟩ := (h .a).checked
  obtain ⟨y, b⟩ := (h .b).checked
  obtain ⟨z, c⟩ := (h .c).checked
  refine ⟨⟨x, y, z⟩, ?_, fun leg => ?_⟩
  · rw [legSettings_eq, show checkField top fields.a = _ from a, show checkField top fields.b = _ from b,
      show checkField top fields.c = _ from c]
  · cases leg
    · exact checkField_eq_some a
    · exact checkField_eq_some b
    · exact checkField_eq_some c

end

/-! ## PUSH (R120) -/

theorem exec_push {s : State} (h : s.pins.rstn = true) : exec .push s = .next (issue 0x09 pushStep s) := whilePowered_on _ h

/-- The settings that a PUSH reads, in the range of its tag's profile (R120). -/
def pushSettings (s : State) : Except (Fin 3) (PerLeg LegSetting) :=
  legSettings (compareTop s.tables.link (profileAt s.tables ((pushTag s.host.args).setWidth 3))) (legFields s.host.args)

section
variable {s : State}

theorem pushStep_outside (hg : inGroup s = false) : pushStep s = refuseState s := if_pos hg

variable (hg : inGroup s = true)
include hg

theorem pushStep_unfit (ht : tagUnfit s.tables (pushTag s.host.args) = true) :
    pushStep s = setResult .refusedProfile ((pushTag s.host.args).setWidth 8) s := by
  unfold pushStep; dsimp only; rw [if_neg (by simp [hg]), if_pos ht]

variable (ht : tagUnfit s.tables (pushTag s.host.args) = false)
include ht

theorem pushStep_outOfRange {leg : Fin 3} (hl : pushSettings s = .error leg) :
    pushStep s = setResult .refusedRange (natByte leg.val) s := by
  unfold pushSettings at hl
  unfold pushStep; dsimp only; rw [if_neg (by simp [hg]), if_neg (by simp [ht]), hl]

variable {legs : PerLeg LegSetting} (hl : pushSettings s = .ok legs)
include hl

theorem pushStep_full (hq : 4 ≤ s.setpoint.queue.length) : pushStep s = setResult .refusedFull 4 s := by
  unfold pushSettings at hl
  unfold pushStep; dsimp only; rw [if_neg (by simp [hg]), if_neg (by simp [ht]), hl]
  exact if_pos hq

theorem pushStep_appends (hq : s.setpoint.queue.length < 4) : pushStep s =
    setResult .done (natByte (s.setpoint.queue.length + 1)) { s with setpoint := { s.setpoint with
      queue := s.setpoint.queue ++ [{ tag := (pushTag s.host.args).setWidth 3, legs := legs }] } } := by
  unfold pushSettings at hl
  unfold pushStep; dsimp only; rw [if_neg (by simp [hg]), if_neg (by simp [ht]), hl]
  dsimp only; rw [if_neg (Nat.not_le_of_lt hq), List.length_append]; rfl

end

/-- Settles O29: the four checks, each behind those before it, and the record that passes them. -/
theorem pushChecksThenAppends : Obligations.PushChecksThenAppends := by
  intro s hp a tag code value p top tagGood legGood refused
  have unfit : tagUnfit s.tables (pushTag a) = false ↔ tagGood := by
    rw [tagUnfit_false_iff, toNat_pushTag, pushTag_profile]
  have fits (leg : Leg) : LegFits top (legFields a) leg ↔ legGood leg := by
    obtain ⟨mode, compare⟩ := toNat_legFields a leg
    rw [LegFits, mode, compare]; exact Iff.rfl
  have settings : pushSettings (withCommand 0x09 s) = legSettings top (legFields a) := by
    rw [pushSettings, pushTag_profile]; rfl
  rw [exec_push hp, issue_eq]
  refine ⟨fun hg => ?_, fun hg ht => ?_, fun hg ht ha => ?_, fun hg ht ha hb => ?_, fun hg ht ha hb hc => ?_,
    fun hg ht hl hq => ?_, fun hg ht hl hq => ?_⟩
  · rw [pushStep_outside (s := withCommand 0x09 s) hg]; rfl
  · rw [pushStep_unfit (s := withCommand 0x09 s) hg (Bool.eq_true_of_not_eq_false fun e => ht (unfit.1 e)),
      pushTag_detail]; rfl
  · rw [pushStep_outOfRange (s := withCommand 0x09 s) hg (unfit.2 ht)
      (settings.trans (legSettings_error_a (mt (fits _).1 ha)))]; rfl
  · rw [pushStep_outOfRange (s := withCommand 0x09 s) hg (unfit.2 ht)
      (settings.trans (legSettings_error_b ((fits _).2 ha) (mt (fits _).1 hb)))]; rfl
  · rw [pushStep_outOfRange (s := withCommand 0x09 s) hg (unfit.2 ht)
      (settings.trans (legSettings_error_c ((fits _).2 ha) ((fits _).2 hb) (mt (fits _).1 hc)))]; rfl
  all_goals obtain ⟨legs, ok, spelled⟩ := legSettings_ok fun leg => (fits leg).2 (hl leg)
  · rw [pushStep_full (s := withCommand 0x09 s) hg (unfit.2 ht) (settings.trans ok) hq]; rfl
  · refine ⟨⟨(pushTag a).setWidth 3, legs⟩, ?_, fun leg => ?_, ?_⟩
    · have : (pushTag a).toNat ≤ 7 := by rw [toNat_pushTag]; exact ht.2.1
      rw [BitVec.toNat_setWidth, Nat.mod_eq_of_lt (by omega), toNat_pushTag]
    · obtain ⟨mode, compare⟩ := spelled leg
      obtain ⟨modes, compares⟩ := toNat_legFields a leg
      exact ⟨by rw [mode]; exact modes, by rw [compare]; exact compares⟩
    · rw [pushStep_appends (s := withCommand 0x09 s) hg (unfit.2 ht) (settings.trans ok) hq]; rfl

/-! ## FLUSH (R121) -/

theorem exec_flush {s : State} (h : s.pins.rstn = true) : exec .flush s = .next (issue 0x0A flushStep s) := whilePowered_on _ h

/-- A load from an empty queue discards nothing and starves (R124). -/
theorem queueLoad_empty {s : State} (h : s.setpoint.queue = []) : queueLoad s = starvedLoad s := by
  have still : discardStale s = s := by unfold discardStale; rw [h]; rfl
  unfold queueLoad; dsimp only; rw [still, h]

/-- Settles O30: FLUSH is one update of the queue, and the load after it finds no record. -/
theorem flushEmptiesTheQueue : Obligations.FlushEmptiesTheQueue := fun _ hp =>
  ⟨_, exec_flush hp, rfl, queueLoad_empty rfl⟩

end Sys2Proof.Machine
end

section
/-! Load points that take no record: the starved load (O32) and the load of a PATTERN profile (O33). -/

namespace Sys2Proof.Machine

/-- A load point of a RUNNING station with its carrier running is a load and the STARVED cause it may raise (R104, R105, R123); both
gates of a leg whose live setting is OFF are off after it (R109). -/
theorem exec_loadPoint_running (position : LoadPosition) {s : State} (hp : s.pins.rstn = true) (hs : s.station = .running)
    (running : s.carrier.running = true) (has : settingHas s.carrier.loadSetting position = true) :
    let loaded := load { s with free := s.free + 1 }
    ∃ g : Gate,
      exec (.loadPoint position) s = .next (raiseStarved loaded.2 { loaded.1 with
        carrier := { s.carrier with position := loadPositionAt s.carrier position, setThisTick := false }, gate := g }) ∧
      ∀ leg, (loaded.1.setpoint.live.get leg).mode = .off → ∀ side, gateOn (g.legs.get leg) side = false := by
  obtain ⟨g, e, -, legs⟩ := loadAt_spec (loadPositionAt s.carrier position) (Config.firstOfTwo s.free)
    { s with free := s.free + 1 }
  refine ⟨g, ?_, fun leg off side => Bool.eq_false_iff.2 fun on => ?_⟩
  · rw [exec_loadPoint position hp, loadPointStep_running position running has, e]
  · obtain ⟨mode, -, demanded⟩ := legs hs leg
    exact demanded side on (by rw [mode, off, ite_self])

/-! ## A starved load (R124, R125) -/

/-- The load that takes the count to the limit raises STARVED, and no other does (R125). -/
theorem starveRaises_iff (limit count : Nat) : starveRaises limit count = true ↔ count + 1 = limit := by
  simp only [starveRaises, decide_eq_true_eq]; omega

theorem starveNext_eq (limit count : Nat) : starveNext limit count = if count < limit then count + 1 else count := by
  unfold starveNext; congr 1; simp; omega

/-- The report of the stale records of a queue that holds no others: one STALE_SETPOINT where there are any (R124). -/
def allStaleReports (s : State) : List Report :=
  match s.setpoint.queue with
  | [] => []
  | x :: xs => [reportOf (.staleSetpoint (xs.length + 1) x.tag s.change.profile) s.number s]

/-- The reports of a starved load: what it discards, and STARVE_BEGIN where it begins a run (R124, R125). -/
def starvedReports (s : State) : List Report :=
  allStaleReports s ++
    if s.setpoint.starveRun then [] else [reportOf (.starveBegin s.change.profile s.tables.link.starveLimit) s.number s]

/-- The setpoints after a starved load: the queue empty, the live setpoint held, the run begun, with a starve count (R125). -/
def starvedSetpoint (s : State) (count : Nat) : SetpointUnit :=
  { s.setpoint with queue := [], starveRun := true, starve := count }

/-- The station that a starved load leaves, with a starve count; the carrier, the gates and the free values are what the load point
makes of them. -/
def loadStarved (s : State) (count : Nat) (c : Carrier) (g : Gate) (n : Nat) : State :=
  { s with
    setpoint := starvedSetpoint s count
    host := { s.host with reports := postAll (starvedReports s) s.host.reports }
    carrier := c, gate := g, free := n }

section
variable {s : State} (old : ∀ x ∈ s.setpoint.queue, x.tag ≠ s.change.profile)
include old

theorem discardStale_all : discardStale s = { s with
    setpoint := { s.setpoint with queue := [] }
    host := { s.host with reports := postAll (allStaleReports s) s.host.reports } } := by
  have all : ∀ x ∈ s.setpoint.queue, (x.tag != s.change.profile) = true := fun x hx => by simpa using old x hx
  unfold discardStale allStaleReports
  simp only [List.takeWhile_eq_self_iff.2 all, List.dropWhile_eq_nil_iff.2 all, postSelf_setpoint]
  cases queue : s.setpoint.queue with
  | nil => exact congrArg (fun q => ({ s with setpoint := { s.setpoint with queue := q } } : State)) queue
  | cons => rfl

theorem load_starves (source : (liveProfile s).source = .queue) :
    load s = (loadStarved s (starveNext s.tables.link.starveLimit s.setpoint.starve) s.carrier s.gate s.free,
      starveRaises s.tables.link.starveLimit s.setpoint.starve) := by
  rw [load_queue source]; unfold queueLoad; dsimp only
  rw [discardStale_all old]; dsimp only
  unfold starvedLoad loadStarved starvedReports; dsimp only
  rw [postAll_append]
  cases s.setpoint.starveRun <;> rfl

end

/-- A load point under a QUEUE profile that finds no record of the live profile is a starved load and its STARVED cause (R124,
R125). -/
theorem exec_loadPoint_starves (position : LoadPosition) {s : State} (hp : s.pins.rstn = true) (hs : s.station = .running)
    (running : s.carrier.running = true) (has : settingHas s.carrier.loadSetting position = true)
    (source : (liveProfile s).source = .queue) (old : ∀ x ∈ s.setpoint.queue, x.tag ≠ s.change.profile) :
    ∃ c g n, exec (.loadPoint position) s = .next (raiseStarved (starveRaises s.tables.link.starveLimit s.setpoint.starve)
      (loadStarved s (starveNext s.tables.link.starveLimit s.setpoint.starve) c g n)) := by
  obtain ⟨g, e, -⟩ := exec_loadPoint_running position hp hs running has
  rw [load_starves (s := { s with free := s.free + 1 }) old source] at e
  exact ⟨_, g, _, e⟩

/-! ## Its STARVED cause (R125, R129, R135, R136, R139) -/

/-- What is left where the STARVED of a load that reaches the limit waits for the other events of its tick (R129, R139). -/
def StarvedWaits (s t : State) : Prop :=
  t.station = .running ∧ t.setpoint = starvedSetpoint s s.tables.link.starveLimit ∧
    t.host.reports = postAll (starvedReports s) s.host.reports ∧
    t.now.waiting = s.now.waiting ++ [.cause ⟨.starved, s.number, none⟩]

/-- What is left where it is taken: CAUSE_SEEN under REPORT, and a trip entry under TRIP (R125, R135, R136). -/
def StarvedTaken (s t : State) : Prop :=
  let row := rowOf s.tables .starved
  t.now.waiting = s.now.waiting ∧
    (row.action = .report → t.station = .running ∧ t.setpoint = starvedSetpoint s s.tables.link.starveLimit ∧
      t.host.reports =
        postAll (starvedReports s ++ [reportOf (.causeSeen .starved .running none) s.number s]) s.host.reports) ∧
    (row.action = .trip → t.station = .tripped ∧ t.setpoint = SetpointUnit.empty ∧
      t.gate = Gate.off ∧ t.carrier = Carrier.stopped ∧ t.trip.first = some .starved ∧ t.change.view = 0 ∧
      t.host.reports = postAll (starvedReports s ++ reportOf (.tripped .starved row.drive .running none) s.number s ::
        abandonedReports .trip s) s.host.reports)

section
variable {s : State} (c : Carrier) (g : Gate) (n : Nat) (hs : s.station = .running)
include hs

theorem starvedWaits_holdCause :
    StarvedWaits s (holdCause .starved s.number none (loadStarved s s.tables.link.starveLimit c g n)) :=
  ⟨hs, rfl, rfl, rfl⟩

variable (row : (rowOf s.tables .starved).action = .report ∨ (rowOf s.tables .starved).action = .trip)
include row

theorem starvedTaken_takeOwnCause : StarvedTaken s (takeOwnCause .starved (loadStarved s s.tables.link.starveLimit c g n)) := by
  rcases row with action | action
  · have reported : takeOwnCause .starved (loadStarved s s.tables.link.starveLimit c g n) = _ :=
      takeCause_reports (s := loadStarved s s.tables.link.starveLimit c g n) s.number none hs rfl action
    rw [reported]
    refine ⟨rfl, fun _ => ⟨hs, rfl, by rw [postAll_append]; rfl⟩, fun trip => ?_⟩
    rw [action] at trip; cases trip
  · rw [takeOwnCause_starved_trips (s := loadStarved s s.tables.link.starveLimit c g n) hs action, tripEntry_eq]
    refine ⟨rfl, fun report => ?_, fun _ => ⟨rfl, rfl, rfl, rfl, rfl, rfl, ?_⟩⟩
    · rw [action] at report; cases report
    · rw [postAll_append, ← hs]; rfl

/-- The STARVED of the load that reaches the limit waits or is taken: it waits behind an event that may trip or withdraw the
station, and is taken where no event waits (R129, R139). -/
theorem raiseStarved_waits_or_taken :
    let t := raiseStarved true (loadStarved s s.tables.link.starveLimit c g n)
    (StarvedWaits s t ∨ StarvedTaken s t) ∧ (s.pending.any mayClaim = true → StarvedWaits s t) ∧
      (s.pending = [] → StarvedTaken s t) := by
  have waits := fun m => starvedWaits_holdCause c g m hs
  have taken := fun m => starvedTaken_takeOwnCause c g m hs row
  have acts : actsOn .starved (loadStarved s s.tables.link.starveLimit c g n) = true := by
    have evaluates : evaluated .starved s.station = true := by rw [hs]; rfl
    refine Bool.and_eq_true_iff.2 ⟨evaluates, ?_⟩
    rcases row with e | e <;> simp only [loadStarved, e]
  refine ⟨?_, fun claims => ?_, fun alone => ?_⟩
  · rcases raiseStarved_cases (loadStarved s s.tables.link.starveLimit c g n) with e | ⟨-, m, e | e⟩ <;> rw [e]
    · exact .inr (taken n)
    · exact .inr (taken m)
    · exact .inl (waits m)
  · rw [raiseStarved_behind (s := loadStarved s s.tables.link.starveLimit c g n) claims, acts]; exact waits n
  · rw [raiseStarved_alone true (s := loadStarved s s.tables.link.starveLimit c g n) alone]; exact taken n

end

/-- Settles O32: the load counts and reports, and its cause waits or is taken; in the states that the events before it leave it is
added or discarded. -/
theorem starvedLoadCountsToTheLimit : Obligations.StarvedLoadCountsToTheLimit := by
  intro position s hp hs running has source old limit stale begin_ starved reaches row
  obtain ⟨c, g, n, e⟩ := exec_loadPoint_starves position hp hs running has source old
  refine ⟨fun below => ⟨_, e, ?_⟩, fun full acts => ⟨_, e, ?_⟩, fun trip new => ?_, rfl⟩
  · have quiet := Bool.eq_false_iff.2 (mt (starveRaises_iff limit s.setpoint.starve).1 below)
    rw [quiet]
    exact ⟨hs, congrArg starved (starveNext_eq limit s.setpoint.starve), rfl, rfl⟩
  · have count : starveNext limit s.setpoint.starve = limit := by
      rw [starveNext_eq, if_pos (Nat.lt_of_succ_le full.le)]; exact full
    rw [(starveRaises_iff limit s.setpoint.starve).2 full, count]
    exact raiseStarved_waits_or_taken c g n hs acts
  · have claimed := takeCause_of_trip (c := .starved) (s := { s with station := .tripped }) s.number none rfl trip
    rw [claimed, tripClaim_tripped _ _ _ _ (by rfl), addCause_eq .starved _ _ _ (by exact new) (.inr nofun)]; rfl

/-! ## A load of a PATTERN profile (R126) -/

/-- A load point under a PATTERN profile raises no cause: the load takes the setpoints and the reports where the pattern does (R123,
R126). -/
theorem exec_loadPoint_pattern (position : LoadPosition) {s : State} (hp : s.pins.rstn = true) (hs : s.station = .running)
    (running : s.carrier.running = true) (has : settingHas s.carrier.loadSetting position = true)
    (source : (liveProfile s).source = .pattern) :
    ∃ t, exec (.loadPoint position) s = .next t ∧ t.setpoint = (patternLoad s).setpoint ∧ t.host = (patternLoad s).host ∧
      ∀ leg, (t.setpoint.live.get leg).mode = .off → ∀ side, gateOn (t.gate.legs.get leg) side = false := by
  obtain ⟨g, e, off⟩ := exec_loadPoint_running position hp hs running has
  have unread := patternLoad_withUnread (s.free + 1) s.change.collection s
  rw [load_pattern (s := { s with free := s.free + 1 }) source] at e off
  refine ⟨_, e, ?_, ?_, off⟩
  · exact (congrArg State.setpoint unread :)
  · exact (congrArg State.host unread :)

section
variable {s : State}

theorem patternLoad_ended (he : s.setpoint.ended = true) : patternLoad s = s := if_pos he

variable (he : s.setpoint.ended = false)
include he

/-- The entry at the position becomes live, and the position goes on, in a loop with repeat (R126). -/
theorem patternLoad_plays (inside : s.setpoint.position < (liveProfile s).patternLength)
    (h : (liveProfile s).patternStart + s.setpoint.position < 64) : patternLoad s = { s with setpoint := { s.setpoint with
      live := s.tables.pattern[(liveProfile s).patternStart + s.setpoint.position]
      position := patternNext (liveProfile s) s.setpoint.position } } := by
  have entry : s.tables.pattern.toList.getD ((liveProfile s).patternStart + s.setpoint.position) allOff =
      s.tables.pattern[(liveProfile s).patternStart + s.setpoint.position] := by simp [List.getD, h]
  unfold patternLoad; dsimp only
  rw [if_neg (by simp [he]), if_pos inside, entry]

/-- Without repeat the load after the last entry turns all legs OFF (R126). -/
theorem patternLoad_ends (last : s.setpoint.position = (liveProfile s).patternLength)
    (once : (liveProfile s).patternRepeat = false) : patternLoad s =
      let ended := .patternEnd s.change.profile (liveProfile s).patternStart (liveProfile s).patternLength
      { s with
        setpoint := { s.setpoint with live := allOff, ended := true }
        host := { s.host with reports := arrive s.host.reports (reportOf ended s.number s) } } := by
  unfold patternLoad; dsimp only
  rw [if_neg (by simp [he]), if_neg (by omega), if_neg (by simp [once])]; rfl

end

/-- Settles O33: the three cases of a load from the pattern table, none of which reads or writes the queue. -/
theorem patternLoadPlaysInOrder : Obligations.PatternLoadPlaysInOrder := by
  intro position s hp hs running has source p at_
  obtain ⟨t, e, setpoint, host, off⟩ := exec_loadPoint_pattern position hp hs running has source
  refine ⟨fun he => ⟨t, e, ?_⟩, fun h he inside => ⟨t, e, ?_⟩, fun he last once => ⟨t, e, ?_⟩⟩
  · rw [setpoint, host, patternLoad_ended he]; exact ⟨rfl, rfl⟩
  · rw [setpoint, host, patternLoad_plays he inside h]; exact ⟨rfl, rfl⟩
  · have ends := patternLoad_ends he last once
    rw [setpoint, ends] at off
    rw [setpoint, host, ends]
    exact ⟨rfl, fun leg => off leg (by cases leg <;> rfl), rfl⟩

end Sys2Proof.Machine
end

section
/-! STOP (O24), CLEAR (O25) and the sample of its settle (O26). -/

namespace Sys2Proof.Machine

/-! ## STOP (R136, R137, R142) -/

theorem exec_stop {s : State} (h : s.pins.rstn = true) : exec .stop s = .next (issue 0x08 stopStep s) := whilePowered_on _ h

section
variable {s : State}

theorem stopStep_outside (h : s.station = .offline ∨ s.station = .listening) : stopStep s = refuseState s := by
  unfold stopStep
  rcases h with e | e <;> rw [e]

theorem stopStep_trips (h : s.station = .joined ∨ s.station = .running) :
    stopStep s = setResult .done 0 (tripEntry .host (rowOf s.tables .host).drive s.number none s) := by
  unfold stopStep
  rcases h with e | e <;> rw [e]

variable (hs : s.station = .tripped)
include hs

theorem stopStep_adds (new : hasCause .host s.trip.causes = false) :
    stopStep s = setResult .done 1 (addCause .host s.number none s) := by
  unfold stopStep; rw [hs]; exact if_neg (Bool.eq_false_iff.1 new)

theorem stopStep_held (held : hasCause .host s.trip.causes = true) : stopStep s = setResult .done 2 s := by
  unfold stopStep; rw [hs]; exact if_pos held

end

/-- A trip entry reads nothing of the last command, and is the same before and after the answer to its command. -/
theorem TrippedBy.answered {c : Cause} {d : Bool} {x : StationNo} {k : Option MismatchKind} {code : Byte} {s t : State}
    (h : TrippedBy c d x k (withCommand code s) t) (result : ResultCode) (detail : Byte) :
    TrippedBy c d x k s (setResult result detail t) := by
  obtain ⟨link, tables, acq, number, pins, pending, host⟩ := h.kept
  exact ⟨h.station, h.trip, h.outputs, h.change, h.roster, h.reports,
    ⟨link, tables, acq, number, pins, pending, congrArg (fun r => { r with result := result, detail := detail }) host⟩,
    h.now, h.line⟩

/-- Settles O24: the states in which STOP is refused, the trip entry, and the addition that is made once. -/
theorem stopTripsOrAdds : Obligations.StopTripsOrAdds := by
  intro s hp row
  rw [exec_stop hp, issue_eq]
  refine ⟨fun hs => ?_, fun hs => ⟨_, rfl, ?_⟩, fun hs new => ⟨_, rfl, ?_⟩, fun hs held => ?_⟩
  · rw [stopStep_outside (s := withCommand 0x08 s) hs]; rfl
  · rw [stopStep_trips (s := withCommand 0x08 s) hs]
    have entry := (trippedBy_tripEntry .host row.drive s.number none (withCommand 0x08 s)).answered .done 0
    exact ⟨entry, (entry.line hp).2, rfl, rfl, by rw [tripEntry_eq]; rfl⟩
  · rw [stopStep_adds (s := withCommand 0x08 s) hs new, addCause_eq .host _ _ _ (by exact new) (.inr nofun)]
    refine ⟨(trpnDriven_tripped ?_ ?_).trans Bool.or_eq_true_iff, rfl⟩
    · exact hp
    · exact hs
  · rw [stopStep_held (s := withCommand 0x08 s) hs held]; rfl

/-! ## CLEAR (R143, R144) -/

theorem exec_clear {s : State} (h : s.pins.rstn = true) : exec .clear s = .next (issue 0x07 clearStep s) := whilePowered_on _ h

theorem faultStands_iff (s : State) (i : Fin 4) :
    faultStands s i = true ↔ hasCause (.fault i) s.trip.causes = true ∧ s.trip.faults[i].asserted = true :=
  Bool.and_eq_true_iff

section
variable {s : State}

theorem clearStep_untripped (h : s.station ≠ .tripped) : clearStep s = refuseState s := if_pos h

variable (hs : s.station = .tripped)
include hs

/-- The lowest fault that stands refuses the CLEAR (R143). -/
theorem clearStep_refused {i : Fin 4} (stands : faultStands s i = true) (lowest : ∀ j, j < i → ¬faultStands s j = true) :
    clearStep s = setResult .refusedActive (natByte i.val) s := by
  unfold clearStep; rw [if_neg (not_not_intro hs), find?_faultInputs stands lowest]

theorem clearStep_releases (gone : ∀ i, ¬faultStands s i = true) : clearStep s = clearRelease s := by
  unfold clearStep; rw [if_neg (not_not_intro hs), List.find?_eq_none.2 fun i _ => gone i]

end

/-- Settles O25: the state and the standing faults are checked in order, and the release clears the drive. -/
theorem clearChecksThenReleases : Obligations.ClearChecksThenReleases := by
  intro s hp stands
  have stands_iff (i : Fin 4) : faultStands (withCommand 0x07 s) i = true ↔ stands i := faultStands_iff s i
  rw [exec_clear hp, issue_eq]
  refine ⟨fun hs => ?_, fun i hs st lowest => ?_, fun hs gone => ⟨_, rfl, ?_⟩⟩
  · rw [clearStep_untripped (s := withCommand 0x07 s) hs]; rfl
  · rw [clearStep_refused (s := withCommand 0x07 s) hs ((stands_iff i).2 st) fun j hj => mt (stands_iff j).1 (lowest j hj)]; rfl
  · rw [clearStep_releases (s := withCommand 0x07 s) hs fun i => mt (stands_iff i).1 (gone i)]
    exact ⟨Bool.and_false _, rfl⟩

/-! ## The sample at the end of the settle (R138, R144, R146) -/

theorem exec_clearSample (low : Bool) {s : State} (h : s.pins.rstn = true) :
    exec (.clearSample low) s = .next (clearSampleStep low s) := whilePowered_on _ h

/-- The settle of a CLEAR is over (R144). -/
def settleEnded (s : State) : State := { s with trip := { s.trip with settling := false, settled := 0 } }

section
variable {low : Bool} {s : State}

theorem clearSampleStep_idle (h : s.trip.settling = false) : clearSampleStep low s = s :=
  if_neg fun ⟨_, settling⟩ => Bool.eq_false_iff.1 h settling

variable (hs : s.station = .tripped) (settling : s.trip.settling = true)
include hs settling

theorem clearSampleStep_refused (h : low = true ∧ (rowOf s.tables .tripLine).action = .trip) :
    clearSampleStep low s = setResult .refusedActive 4 (addCause .tripLine s.number none (settleEnded s)) :=
  (if_pos ⟨hs, settling⟩).trans (if_pos h)

theorem clearSampleStep_succeeds (h : ¬(low = true ∧ (rowOf s.tables .tripLine).action = .trip)) :
    clearSampleStep low s = setResultOpen .done (clearSucceeds (settleEnded s)) :=
  (if_pos ⟨hs, settling⟩).trans (if_neg h)

end

/-- A cause that is in the set already changes nothing of it. -/
theorem or_causeBit_of_hasCause {c : Cause} {set : BitVec 9} (h : hasCause c set = true) : set ||| causeBit c = set := by
  refine BitVec.eq_of_getLsbD_eq fun i _ => ?_
  by_cases here : i = (causeIndex c).val
  · subst here
    exact (BitVec.getLsbD_or ..).trans (by rw [show set.getLsbD (causeIndex c).val = true from h, Bool.true_or])
  · simp [causeBit, BitVec.getLsbD_twoPow, Ne.symm here]

/-- A cause that is no fault input joins the cause set, and posts TRIP_ADDED and takes its drive flag where it is new (R138). -/
theorem addCause_other {c : Cause} (x : StationNo) (k : Option MismatchKind) (s : State) (other : ∀ i, c ≠ .fault i) :
    let drive := s.trip.drive || (rowOf s.tables c).drive
    addCause c x k s = { s with
      trip := { s.trip with
        causes := s.trip.causes ||| causeBit c, drive := if hasCause c s.trip.causes then s.trip.drive else drive }
      host := { s.host with
        reports := if hasCause c s.trip.causes then s.host.reports
          else arrive s.host.reports (reportOf (.tripAdded c drive k) x s) } } := by
  cases held : hasCause c s.trip.causes with
  | true => rw [addCause_held x k held, or_causeBit_of_hasCause held]; rfl
  | false => rw [addCause_eq c x k s held (.inr other)]; rfl

/-- Settles O26: the sample adds TRIP_LINE, or clears the record of the station, which returns to JOINED. -/
theorem clearSampleDecides : Obligations.ClearSampleDecides := by
  intro low s hp hs refused
  rw [exec_clearSample low hp]
  refine ⟨fun settling passes => ⟨_, rfl, ?_⟩, fun settling stays => ⟨_, rfl, ?_⟩,
    fun idle => congrArg _ (clearSampleStep_idle idle)⟩
  · rw [clearSampleStep_succeeds hs settling passes]
    exact ⟨rfl, rfl, rfl, rfl, rfl, rfl, rfl, rfl, rfl, rfl, rfl, rfl, rfl, rfl⟩
  · rw [clearSampleStep_refused hs settling stays, addCause_other (c := .tripLine) _ _ _ nofun]
    exact ⟨hs, rfl, rfl, rfl, rfl, rfl, rfl, rfl, rfl, rfl, rfl, rfl, rfl⟩

end Sys2Proof.Machine
end

section
/-! The filtered level of the trip line (O28). -/

namespace Sys2Proof.Machine

theorem exec_tripLevel {s : State} (h : s.pins.rstn = true) :
    exec (.filteredLevelChange .trpn) s = .next (tripLevelStep s) := whilePowered_on _ h

/-- The filtered level of the trip line turned over (R132). -/
def tripTurned (s : State) : State := { s with trip := { s.trip with tripLine := flipFilter s.trip.tripLine } }

/-! ## The step by the filter (R132, R133) -/

section
variable {s : State}

theorem tripLevelStep_short (h : s.trip.tripLine.run < filterTicks s) : tripLevelStep s = s :=
  if_neg (mt (filterRipe_iff s _).1 (not_le.2 h))

variable (ripe : filterTicks s ≤ s.trip.tripLine.run)
include ripe

theorem tripLevelStep_deasserts (h : s.trip.tripLine.asserted = true) : tripLevelStep s = tripTurned s := by
  unfold tripLevelStep; rw [if_pos ((filterRipe_iff s _).2 ripe)]
  exact if_neg (Bool.eq_false_iff.1 (congrArg (!·) h))

theorem tripLevelStep_rises (h : s.trip.tripLine.asserted = false) : tripLevelStep s = tripLineRaised (tripTurned s) := by
  unfold tripLevelStep; rw [if_pos ((filterRipe_iff s _).2 ripe)]
  exact if_pos (congrArg (!·) h)

end

/-! ## TRIP_LINE raised, by its row and the station state (R133, R135, R138, R139) -/

theorem evaluated_tripLine_iff (st : StationState) : evaluated .tripLine st = true ↔ st = .joined ∨ st = .running := by
  cases st <;> simp [evaluated]

section
variable {s : State}

/-- But for a trip entry of the same tick, TRIP_LINE is a cause as every other (R133). -/
theorem tripLineRaised_taken (h : ¬(s.station = .tripped ∧ s.now.entered = true)) :
    tripLineRaised s = takeOwnCause .tripLine s := if_neg h

theorem not_tripped_of_inGroup (h : s.station = .joined ∨ s.station = .running) :
    ¬(s.station = .tripped ∧ s.now.entered = true) := by
  rintro ⟨tripped, -⟩
  rcases h with e | e <;> exact absurd (e.symm.trans tripped) nofun

theorem tripLineRaised_passive (hr : (rowOf s.tables .tripLine).action = .ignore ∨ (rowOf s.tables .tripLine).action = .respace) :
    tripLineRaised s = s := by
  by_cases tripped : s.station = .tripped ∧ s.now.entered = true
  · unfold tripLineRaised; rw [if_pos tripped]
    rcases hr with e | e <;> rw [e]
  · rw [tripLineRaised_taken tripped]; exact takeCause_idle _ _ _ (actsOn_of_passive hr)

/-- It is no cause in OFFLINE, in LISTENING, and in TRIPPED but for the tick of the trip entry (R133, R139). -/
theorem tripLineRaised_unevaluated
    (h : s.station = .offline ∨ s.station = .listening ∨ s.station = .tripped ∧ s.now.entered = false) :
    tripLineRaised s = s := by
  have unevaluated : evaluated .tripLine s.station = false := by
    rcases h with e | e | ⟨e, -⟩ <;> rw [e] <;> rfl
  have earlier : ¬(s.station = .tripped ∧ s.now.entered = true) := by
    rcases h with e | e | ⟨-, e⟩ <;> simp [e]
  rw [tripLineRaised_taken earlier]
  exact takeCause_idle _ _ _ (by rw [actsOn, unevaluated]; rfl)

theorem tripLineRaised_reports
    (h : s.station = .joined ∨ s.station = .running ∨ s.station = .tripped ∧ s.now.entered = true)
    (hr : (rowOf s.tables .tripLine).action = .report) :
    tripLineRaised s = postSelf (.causeSeen .tripLine s.station none) s := by
  rcases or_assoc.2 h with hs | tripped
  · rw [tripLineRaised_taken (not_tripped_of_inGroup hs)]
    exact takeCause_of_report _ _ ((evaluated_tripLine_iff _).2 hs) hr
  · unfold tripLineRaised; rw [if_pos tripped, hr]

theorem tripLineRaised_trips (hs : s.station = .joined ∨ s.station = .running)
    (hr : (rowOf s.tables .tripLine).action = .trip) :
    tripLineRaised s = tripEntry .tripLine (rowOf s.tables .tripLine).drive s.number none s := by
  rw [tripLineRaised_taken (not_tripped_of_inGroup hs), ← tripClaim_inGroup _ _ _ _ hs]
  exact takeCause_of_trip _ _ ((evaluated_tripLine_iff _).2 hs) hr

/-- Raised before the trip entry of its tick and taken after it, it is added (R138, R139). -/
theorem tripLineRaised_adds (hs : s.station = .tripped) (entered : s.now.entered = true)
    (hr : (rowOf s.tables .tripLine).action = .trip) : tripLineRaised s = addCause .tripLine s.number none s := by
  unfold tripLineRaised; rw [if_pos ⟨hs, entered⟩, hr]

end

/-- Settles O28: the level turns over, and its rise is taken by the row and the station state. -/
theorem tripLineLevelChange : Obligations.TripLineLevelChange := by
  intro s hp length before row turned c
  rw [show exec c s = .next (tripLevelStep s) from exec_tripLevel hp]
  refine ⟨fun short => congrArg _ (tripLevelStep_short short), fun ripe => ⟨fun h => congrArg _ ?_,
    fun rises hs hr => ⟨_, rfl, ?_⟩, fun rises hs hr => congrArg _ ?_,
    fun rises hs entered hr => ⟨fun held => congrArg _ ?_, fun new => congrArg _ ?_⟩⟩⟩
  · cases rises : s.trip.tripLine.asserted with
    | true => exact tripLevelStep_deasserts ripe rises
    | false =>
      rw [tripLevelStep_rises ripe rises]
      rcases h with falls | ignore | respace | idle
      · exact absurd (rises.symm.trans falls) nofun
      · exact tripLineRaised_passive (.inl ignore)
      · exact tripLineRaised_passive (.inr respace)
      · exact tripLineRaised_unevaluated idle
  · rw [tripLevelStep_rises ripe rises, tripLineRaised_trips (s := tripTurned s) hs hr]
    exact trippedBy_tripEntry ..
  · rw [tripLevelStep_rises ripe rises]; exact tripLineRaised_reports hs hr
  all_goals rw [tripLevelStep_rises ripe rises, tripLineRaised_adds (s := tripTurned s) hs entered hr]
  · exact addCause_held _ _ held
  · exact addCause_eq _ _ _ _ new (.inr nofun)

end Sys2Proof.Machine
end


section
/-! O10. What only POWER_ON, a TWRITE, JOIN and an accepted mark change (R47, R76, R77, R149, R150, R153). -/

namespace Sys2Proof.Machine

/-! ## What is confined to a few commands -/

/-- The entries of the second tables are those of the first; the freeze is left aside (R150). -/
def sameEntries (t u : Tables) : Prop := { u with frozen := false } = { t with frozen := false }

theorem sameEntries_of_eq {t u v : Tables} (h : sameEntries t u) (e : v = u) : sameEntries t v := by rw [e]; exact h

/-- The command writes a table entry: TWRITE, or its code in COMMAND (R168). -/
def writesTables (c : Instr) : Prop := c = .twrite ∨ c = .registerWrite 0x03 0x0C

/-- The command joins: JOIN, or its code in COMMAND (R78). -/
def joins (c : Instr) : Prop := c = .join ∨ c = .registerWrite 0x03 0x01

/-- What command `c`, begun in state `s`, may not have changed in state `t`: the station number, the tables without a TWRITE, OFFLINE
without a JOIN, and without an accepted mark the view of a station that is still RUNNING (R47, R76, R149, R153). -/
structure Confined (c : Instr) (s t : State) : Prop where
  number : t.number = s.number
  tables : ¬writesTables c → sameEntries s.tables t.tables
  offline : s.station = .offline → ¬joins c → t.station = .offline
  view : s.station = .running → (∀ start, c ≠ .markAccepted start) → t.station = .running →
    t.change.view = s.change.view ∧ t.change.profile = s.change.profile

theorem confined_refl (c : Instr) (s : State) : Confined c s s := ⟨rfl, fun _ => rfl, fun h _ => h, fun _ _ _ => ⟨rfl, rfl⟩⟩

section
variable {c : Instr} {s t u : State} (h : Confined c s t)
include h

/-- An update of nothing that is confined. -/
theorem Confined.congr (number : u.number = t.number) (tables : u.tables = t.tables) (station : u.station = t.station)
    (view : u.change.view = t.change.view) (profile : u.change.profile = t.change.profile) : Confined c s u where
  number := number.trans h.number
  tables hw := sameEntries_of_eq (h.tables hw) tables
  offline ho hj := station.trans (h.offline ho hj)
  view hr hm hu := by rw [view, profile]; exact h.view hr hm (station ▸ hu)

/-- A station that is not OFFLINE moves to a state other than RUNNING. -/
theorem Confined.moves (before : t.station ≠ .offline) (after : u.station ≠ .running) (number : u.number = t.number)
    (tables : u.tables = t.tables) : Confined c s u where
  number := number.trans h.number
  tables hw := sameEntries_of_eq (h.tables hw) tables
  offline ho hj := absurd (h.offline ho hj) before
  view _ _ hu := absurd hu after

end

/-! ## Every elementary update -/

theorem kept_confined (c : Instr) (s : State) : Kept (Confined c s) where
  host _ _ h _ := h.congr rfl rfl rfl rfl rfl
  free _ _ h := h.congr rfl rfl rfl rfl rfl
  pins _ _ h := h.congr rfl rfl rfl rfl rfl
  pending _ _ h := h.congr rfl rfl rfl rfl rfl
  now _ _ h := h.congr rfl rfl rfl rfl rfl
  wires _ _ _ h := h.congr rfl rfl rfl rfl rfl
  trip _ _ h _ _ _ _ _ := h.congr rfl rfl rfl rfl rfl
  settle _ h _ := h.congr rfl rfl rfl rfl rfl
  added _ _ _ h _ := h.congr rfl rfl rfl rfl rfl
  cleared _ h ht := h.moves (by simp [ht]) nofun rfl rfl
  tripped _ _ _ _ _ h hg := by
    rw [tripEntry_eq]; exact h.moves (not_offline_of_inGroup hg) nofun rfl rfl
  withdrawn _ h := ⟨h.number, h.tables, fun _ _ => rfl, fun _ _ hr => absurd hr nofun⟩
  joined _ _ _ h hs := h.moves (by simp [hs]) nofun rfl rfl
  vacated _ h := h.congr rfl rfl rfl rfl rfl
  drop _ h _ := h.congr rfl rfl rfl rfl rfl
  proposed _ _ _ h _ _ _ _ := h.congr rfl rfl rfl rfl rfl
  adopted _ _ _ h _ _ _ _ _ := h.congr rfl rfl rfl rfl rfl
  sent _ _ _ h _ _ := h.congr rfl rfl rfl rfl rfl
  counted _ _ h _ := h.congr rfl rfl rfl rfl rfl
  judged _ h := h.congr rfl rfl rfl rfl rfl
  collect _ _ h _ _ _ := h.congr rfl rfl rfl rfl rfl
  emptied _ h := h.congr rfl rfl rfl rfl rfl
  discord _ _ h _ := h.congr rfl rfl rfl rfl rfl
  hold _ _ h _ := h.congr rfl rfl rfl rfl rfl
  pair _ _ h hj _ _ _ := h.moves (by simp [hj]) (by simp [hj]) rfl rfl
  entry _ _ _ h _ _ _ := h.congr rfl rfl rfl rfl rfl
  judgeLost _ _ h _ := h.congr rfl rfl rfl rfl rfl
  mismatch _ _ h _ := h.congr rfl rfl rfl rfl rfl
  advance _ _ h _ _ := h.congr rfl rfl rfl rfl rfl
  unmarked _ h := h.congr rfl rfl rfl rfl rfl
  gates _ _ h _ _ := h.congr rfl rfl rfl rfl rfl
  counts _ h := h.congr rfl rfl rfl rfl rfl
  load u h _ := by
    obtain ⟨_, -, e⟩ := load_eq u
    rw [e]; exact h.congr rfl rfl rfl rfl rfl
  queue _ _ h _ := h.congr rfl rfl rfl rfl rfl

/-! ## The updates of JOIN, TWRITE and an accepted mark -/

theorem Confined.enterListening {c : Instr} {s t : State} (h : Confined c s t) (hj : joins c) :
    Confined c s (enterListening t) :=
  ⟨h.number, h.tables, fun _ hn => absurd hj hn, fun _ _ hr => absurd hr nofun⟩

theorem Confined.twriteStep {c : Instr} {s t : State} (h : Confined c s t) (hw : writesTables c) :
    Confined c s (twriteStep t) := by
  obtain ⟨same, station⟩ := viewed_twriteStep t
  obtain ⟨number, view, profile, -⟩ := (viewed_eq_iff _ _).1 same
  exact ⟨number.trans h.number, fun hn => absurd hw hn, fun ho hj => station.trans (h.offline ho hj),
    fun hr hm hu => by rw [view, profile]; exact h.view hr hm (station ▸ hu)⟩

/-- Only a JOINED or RUNNING station applies a change, and it keeps its number and its tables (R64). -/
theorem keptByApply_confined {start : Nat} (s : State) : KeptByApply (Confined (.markAccepted start) s) := by
  intro t h hg _
  have claim := steady_applyClaim t.change.slot t
  exact ⟨claim.number.trans h.number, fun hw => sameEntries_of_eq (h.tables hw) claim.tables,
    fun ho hj => absurd (h.offline ho hj) (not_offline_of_inGroup hg), fun _ hm => absurd rfl (hm start)⟩

/-- Every command but POWER_ON is confined. -/
theorem confined_exec {c : Instr} {s t : State} (h : exec c s = .next t) (hc : ∀ ids, c ≠ .powerOn ids) : Confined c s t :=
  (kept_confined c s).exec (confined_refl c s) h (fun ids e => absurd e (hc ids))
    (fun hj _ hu _ _ => hu.enterListening hj) (fun hw _ hu => hu.twriteStep hw)
    (by rintro ⟨start, rfl⟩; exact keptByApply_confined s)

/-! ## OFFLINE and JOIN (R76, R78) -/

theorem station_joinStep {s : State} (ho : s.station = .offline) :
    (joinStep s).station = .offline ∨ (joinStep s).station = .listening := by
  unfold joinStep; rw [if_neg (not_not.2 ho)]
  split
  · exact .inl ho
  · split
    · exact .inl ho
    · rw [reportFaults_eq]; exact .inr rfl

/-- A JOIN, by its command or by its code, leaves OFFLINE for LISTENING alone. -/
theorem listening_of_joins {c : Instr} {s t : State} (hj : joins c) (h : exec c s = .next t) (ho : s.station = .offline)
    (left : t.station ≠ .offline) : t.station = .listening := by
  have join : exec c s = exec .join s := by rcases hj with rfl | rfl <;> rfl
  cases hp : s.pins.rstn with
  | true =>
    rw [join, exec_join hp, issue_eq] at h
    injection h with h
    subst h
    exact (station_joinStep (s := withCommand 0x01 s) ho).resolve_left left
  | false =>
    rw [join, show exec .join s = .next s from whilePowered_off _ hp] at h
    injection h with h
    exact absurd (h ▸ ho) left

/-- Settles O10: what every elementary update keeps, and the updates of JOIN, TWRITE and an accepted mark. -/
theorem onlyTheseCommandsChange : Obligations.OnlyTheseCommandsChange := by
  intro c s t h hc
  have kept := confined_exec h hc
  refine ⟨kept.number, fun h1 h2 => kept.tables (not_or.2 ⟨h1, h2⟩), fun ho left => ?_, fun hr hu hm => kept.view hr hm hu⟩
  have hj : joins c := by
    by_contra hn
    exact left (kept.offline ho hn)
  exact ⟨hj, listening_of_joins hj h ho left⟩

end Sys2Proof.Machine
end


section
/-! SUPPORT. TWRITE table by table, its checks in their order, and the first field out of range by the numbers of the staging bytes
(R152, R155, R156, R157, R168). -/

namespace Sys2Proof.Machine

/-! ## The command -/

theorem exec_twrite {s : State} (h : s.pins.rstn = true) : exec .twrite s = .next (issue 0x0C twriteStep s) :=
  whilePowered_on _ h

section
variable {s : State}

theorem twriteStep_absentTable (h : 3 < s.host.tsel.toNat) : twriteStep s = setResult .refusedRange 254 s := by
  unfold twriteStep; dsimp only
  split
  · omega
  · omega
  · omega
  · omega
  · rfl

theorem twriteStep_link (h : s.host.tsel = 0) (hi : s.host.tidx.toNat = 0) : twriteStep s =
    writeEntry s ((linkOf s.host.tdata).map fun l => { s.tables with link := l }) settleFilters := by
  unfold twriteStep; dsimp only; rw [h]; exact if_pos hi

theorem twriteStep_profile {i : Nat} (host : 1 ≤ i ∧ i < 8) (h : s.host.tsel = 1) (hi : s.host.tidx.toNat = i) :
    twriteStep s = writeEntry s
      ((profileOf s.host.tdata).map fun p => { s.tables with profiles := s.tables.profiles.set i p host.2 }) id := by
  subst hi
  unfold twriteStep; dsimp only; rw [h]; exact dif_pos host

theorem twriteStep_cause {i : Nat} (hi9 : i < 9) (h : s.host.tsel = 2) (hi : s.host.tidx.toNat = i) :
    twriteStep s = writeEntry s
      ((causeOf ⟨i, hi9⟩ s.host.tdata).map fun r => { s.tables with causes := s.tables.causes.set i r hi9 }) id := by
  subst hi
  unfold twriteStep; dsimp only; rw [h]; exact dif_pos hi9

theorem twriteStep_pattern {i : Nat} (hi64 : i < 64) (h : s.host.tsel = 3) (hi : s.host.tidx.toNat = i) :
    twriteStep s = writeEntry s
      ((patternOf s.host.tdata).map fun e => { s.tables with pattern := s.tables.pattern.set i e hi64 }) id := by
  subst hi
  unfold twriteStep; dsimp only; rw [h]; exact dif_pos hi64

/-- An index that its table does not have, or that the host cannot write, is refused (R154, R168). -/
theorem twriteStep_absentEntry (h : s.host.tsel = 0 ∧ s.host.tidx ≠ 0 ∨
      s.host.tsel = 1 ∧ (s.host.tidx = 0 ∨ 7 < s.host.tidx.toNat) ∨
      s.host.tsel = 2 ∧ 8 < s.host.tidx.toNat ∨ s.host.tsel = 3 ∧ 63 < s.host.tidx.toNat) :
    twriteStep s = refuseIndex s := by
  unfold twriteStep; dsimp only
  rcases h with ⟨h, hi⟩ | ⟨h, hi⟩ | ⟨h, hi⟩ | ⟨h, hi⟩ <;> rw [h]
  · exact if_neg fun e => hi (BitVec.eq_of_toNat_eq e)
  · refine dif_neg fun ⟨low, high⟩ => ?_
    rcases hi with hi | hi
    · rw [hi] at low; contradiction
    · omega
  · exact dif_neg (by omega)
  · exact dif_neg (by omega)

/-! ## Checks 3 to 5 (R168) -/

section
variable {α : Type} {read : Except Nat α} {store : α → Tables} {after : State → State} (hp : s.pins.rstn = true)
  (h : twriteStep (withCommand 0x0C s) = writeEntry (withCommand 0x0C s) (read.map store) after)
include hp h

theorem exec_twrite_frozen (frozen : s.tables.frozen = true) : exec .twrite s =
    .next { s with host := { s.host with lastCommand := 0x0C, result := .refusedFrozen, detail := 0 } } := by
  rw [exec_twrite hp, issue_eq, h]
  exact congrArg _ (if_pos frozen)

variable (thawed : s.tables.frozen = false)
include thawed

theorem exec_twrite_field {field : Nat} (hr : read = .error field) : exec .twrite s =
    .next { s with host := { s.host with lastCommand := 0x0C, result := .refusedRange, detail := natByte field } } := by
  rw [exec_twrite hp, issue_eq, h, hr]
  exact congrArg _ (if_neg (by simp [withCommand, thawed]))

theorem exec_twrite_stores {a : α} (hr : read = .ok a) : exec .twrite s =
    .next (setResult .done 0 (after { withCommand 0x0C s with tables := store a })) := by
  rw [exec_twrite hp, issue_eq, h, hr]
  exact congrArg _ (if_neg (by simp [withCommand, thawed]))

end

end

/-! ## The first field out of range (R152, R155, R156, R157) -/

/-- The lowest cycle length that leaves room for the windows of all stations (R151). -/
theorem shortestCycle (wide : Bool) :
    32 + 176 * countOf (if wide = true then .s16 else .s8) = if wide = true then 2848 else 1440 := by
  cases wide <;> rfl

theorem eq_three_iff (code : BitVec 2) : code = 3 ↔ code.toNat = 3 := BitVec.toNat_inj.symm

/-- The checks of a LINK entry: the divisor, the cycle length, the lead, the miss limit (R151, R152). -/
theorem linkOf_checks (b : Vector Byte 8) : ∃ l, linkOf b =
    if (b[0].extractLsb' 0 2).toNat = 3 then .error 1
    else if b[1].toNat + 256 * b[2].toNat < (if b[0].getLsbD 2 = true then 2848 else 1440) ∨
        8191 < b[1].toNat + 256 * b[2].toNat then .error 3
    else if b[3].toNat % 16 < 3 then .error 4
    else if b[3].toNat / 16 % 8 < 1 ∨ 4 < b[3].toNat / 16 % 8 then .error 5
    else .ok l := by
  simp only [linkOf, eq_three_iff, shortestCycle, toNat_wordOf, toNat_extract b[3], Nat.reducePow, Nat.div_one]
  exact ⟨_, rfl⟩

/-- The checks of a PROFILE entry: the ratio, the dead time, the load-point setting, the pattern length (R155). -/
theorem profileOf_checks (b : Vector Byte 8) : ∃ p, profileOf b =
    if b[0].toNat / 2 % 4 = 3 then .error 2
    else if b[1] = 0 then .error 4
    else if b[0].toNat / 32 % 4 = 3 then .error 6
    else if b[4].toNat % 128 = 0 ∨ 64 < b[3].toNat % 64 + b[4].toNat % 128 then .error 10
    else .ok p := by
  simp only [profileOf, eq_three_iff, toNat_extract, Nat.reducePow, Nat.div_one]
  exact ⟨_, rfl⟩

/-- The bytes 0 to 3 are the codes of the actions. -/
theorem exists_actionCode {n : Nat} (h : n ≤ 3) : ∃ a, (actionCode a).toNat = n := by
  match n, h with
  | 0, _ => exact ⟨.ignore, rfl⟩
  | 1, _ => exact ⟨.report, rfl⟩
  | 2, _ => exact ⟨.respace, rfl⟩
  | 3, _ => exact ⟨.trip, rfl⟩

/-- A byte that is no action's code (R156). -/
theorem causeOf_unknown {i : Fin 9} {b : Vector Byte 8} (h : 3 < b[0].toNat) : causeOf i b = .error 1 := by
  have ignore : b[0] ≠ 0 := by rintro e; simp [e] at h
  have report : b[0] ≠ 1 := by rintro e; simp [e] at h
  have respace : b[0] ≠ 2 := by rintro e; simp [e] at h
  have trip : b[0] ≠ 3 := by rintro e; simp [e] at h
  unfold causeOf; dsimp only
  rw [if_neg ignore, if_neg report, if_neg respace, if_neg trip]

/-- The checks of a CAUSE row whose byte 0 is an action's code: the action, then the drive flag (R134, R156). -/
theorem causeOf_checks {i : Fin 9} {b : Vector Byte 8} {a : Action} (h : (actionCode a).toNat = b[0].toNat) :
    causeOf i b = if !actionAllowed i a then .error 1
      else if b[1].getLsbD 0 && (a != .trip || i == 4) then .error 2
      else .ok { action := a, drive := b[1].getLsbD 0 } := by
  have code : b[0] = BitVec.ofNat 8 (actionCode a).toNat := by rw [h]; simp
  unfold causeOf; dsimp only
  rw [code]
  cases a <;> rfl

/-- The number of an action that row `i` allows (R134, R156). -/
def ActionFits (i action : Nat) : Prop :=
  action ≤ 3 ∧ (action = 0 → i ≤ 6) ∧ (action = 1 → i ≤ 7) ∧ (action = 2 → i = 5)

theorem actionFits_code (i : Fin 9) (a : Action) : ActionFits i (actionCode a).toNat ↔ actionAllowed i a = true := by
  cases a <;> simp [ActionFits, actionAllowed, actionCode, Fin.ext_iff]

section
variable {i : Fin 9} {b : Vector Byte 8}

theorem causeOf_action (h : ¬ActionFits i b[0].toNat) : causeOf i b = .error 1 := by
  by_cases known : b[0].toNat ≤ 3
  · obtain ⟨a, code⟩ := exists_actionCode known
    rw [← code, actionFits_code] at h
    rw [causeOf_checks code, if_pos (by simpa using h)]
  · exact causeOf_unknown (Nat.lt_of_not_le known)

theorem causeOf_drive (h : ActionFits i b[0].toNat) (drive : b[1].getLsbD 0 = true) (idle : b[0].toNat ≠ 3 ∨ i.val = 4) :
    causeOf i b = .error 2 := by
  obtain ⟨a, code⟩ := exists_actionCode h.1
  rw [← code] at h idle
  have idle : a ≠ .trip ∨ i.val = 4 := idle.imp_left fun ne e => ne (by rw [e]; rfl)
  rw [causeOf_checks code, if_neg (by simp [(actionFits_code i a).1 h]), if_pos]
  simpa [Fin.ext_iff] using ⟨drive, idle⟩

end

theorem patternOf_error {b : Vector Byte 8} {leg : Fin 3} (h : legSettings 65535 (legFields b) = .error leg) :
    patternOf b = .error (2 * leg.val + 1) := by
  unfold patternOf; rw [h]

/-- Every compare value is in the range of a PATTERN write: a leg's field fits when its code names a mode (R157). -/
theorem legFits_pattern (b : Vector Byte 8) (leg : Leg) :
    LegFits 65535 (legFields b) leg ↔ (modeNumbers b).get leg ≤ 3 := by
  have compare := ((legFields b).get leg).2.isLt
  rw [LegFits, (toNat_legFields b leg).1]
  exact and_iff_left (Nat.le_of_lt_succ compare)

end Sys2Proof.Machine
end

section
/-! O16, O17. TWRITE: what it stores, and what it refuses (R117, R132, R151, R152, R155, R156, R157, R168). -/

namespace Sys2Proof.Machine

/-- Between the ticks the gate pins show the gates under the polarity of the LINK table (R110, R117). -/
theorem gatePin_quiet {s : State} (hp : s.pins.rstn = true) (pending : s.pending = []) (waiting : s.now.waiting = [])
    (leg : Leg) (side : Side) :
    gatePin s leg side = pinLevel s.tables.link.polarity (gateOn (s.gate.legs.get leg) side) := by
  have taken : tickOver s = true := by simp [tickOver, pending, waiting]
  rw [gatePin, hp, taken, Bool.true_and, if_pos rfl, pinLevels, get_map]
  cases side <;> rfl

/-- Settles O16: each table reads back the entry that the staging bytes lay out, and stores it. -/
theorem twriteStoresStagedEntry : Obligations.TwriteStoresStagedEntry := by
  intro s hp thawed
  refine ⟨fun l range h hi hd => ?_, fun p i range low h hi hd => ?_, fun r i allowed h hi hd => ?_, fun e i h hi hd => ?_⟩
  · refine ⟨_, exec_twrite_stores hp (twriteStep_link (s := withCommand 0x0C s) h (by exact congrArg _ hi)) thawed
      (a := { l with valid := true }) (by rw [← linkOf_linkBytes s.number range, ← hd]; rfl), rfl, rfl, rfl, rfl, rfl, rfl,
      fun pending waiting leg side => ?_⟩
    exact (gatePin_quiet (by exact hp) (by exact pending) (by exact waiting) leg side).trans (by rfl)
  · exact exec_twrite_stores hp (twriteStep_profile (s := withCommand 0x0C s) ⟨low, i.isLt⟩ h hi) thawed
      (hd ▸ profileOf_profileBytes range)
  · exact exec_twrite_stores hp (twriteStep_cause (s := withCommand 0x0C s) i.isLt h hi) thawed
      (hd ▸ causeOf_causeBytes allowed)
  · exact exec_twrite_stores hp (twriteStep_pattern (s := withCommand 0x0C s) i.isLt h hi) thawed
      (hd ▸ patternOf_legBytes e)

/-- Settles O17: the absent table and index, the freeze, and behind them the first field out of range of each table. -/
theorem twriteRefusalsInOrder : Obligations.TwriteRefusalsInOrder := by
  intro s hp refused
  refine ⟨fun h => ?_, fun _ h => ?_, ?_⟩
  · exact (exec_twrite hp).trans (congrArg _ (twriteStep_absentTable (s := withCommand 0x0C s) h))
  · exact (exec_twrite hp).trans (congrArg _ (twriteStep_absentEntry (s := withCommand 0x0C s) h))
  intro b index link profile cause pattern
  have asLink (h : link) := twriteStep_link (s := withCommand 0x0C s) h.1 h.2
  have asProfile (h : profile) :=
    twriteStep_profile (s := withCommand 0x0C s) (i := index) ⟨h.2.1, Nat.lt_succ_of_le h.2.2⟩ h.1 rfl
  have asCause (h : cause) := twriteStep_cause (s := withCommand 0x0C s) (i := index) (Nat.lt_succ_of_le h.2) h.1 rfl
  have asPattern (h : pattern) := twriteStep_pattern (s := withCommand 0x0C s) (i := index) (Nat.lt_succ_of_le h.2) h.1 rfl
  refine ⟨fun frozen h => ?_, fun thawed => ⟨fun h => ?_, fun h => ?_, fun h => ?_, fun h => ?_⟩⟩
  · rcases h with h | h | h | h
    · exact exec_twrite_frozen hp (asLink h) frozen
    · exact exec_twrite_frozen hp (asProfile h) frozen
    · exact exec_twrite_frozen hp (asCause h) frozen
    · exact exec_twrite_frozen hp (asPattern h) frozen
  · intro dCode top length lead misses
    have field {n : Nat} := exec_twrite_field (field := n) hp (asLink h) thawed
    obtain ⟨_, checks⟩ := linkOf_checks b
    exact ⟨fun h1 => field (checks.trans (if_pos h1)),
      fun h1 h2 => field (checks.trans (by rw [if_neg h1, if_pos h2])),
      fun h1 low high h3 => field (checks.trans (by rw [if_neg h1, if_neg (by omega), if_pos h3])),
      fun h1 low high h3 h4 =>
        field (checks.trans (by rw [if_neg h1, if_neg (by omega), if_neg (by omega), if_pos h4]))⟩
  · intro ratio loadCode start length
    have field {n : Nat} := exec_twrite_field (field := n) hp (asProfile h) thawed
    obtain ⟨_, checks⟩ := profileOf_checks b
    exact ⟨fun h1 => field (checks.trans (if_pos h1)),
      fun h1 h2 => field (checks.trans (by rw [if_neg h1, if_pos h2])),
      fun h1 h2 h3 => field (checks.trans (by rw [if_neg h1, if_neg h2, if_pos h3])),
      fun h1 h2 h3 h4 => field (checks.trans (by rw [if_neg h1, if_neg h2, if_neg h3, if_pos h4]))⟩
  · intro action driven allowed
    have field {n : Nat} := exec_twrite_field (field := n) hp (asCause h) thawed
    exact ⟨fun unfit => field (causeOf_action unfit), fun fits drive idle => field (causeOf_drive fits drive idle)⟩
  · have field {n : Nat} := exec_twrite_field (field := n) hp (asPattern h) thawed
    have fits := legFits_pattern b
    refine ⟨fun ha => ?_, fun ha hb => ?_, fun ha hb hc => ?_⟩
    · exact field (patternOf_error (legSettings_error_a (mt (fits .a).1 (Nat.not_le.2 ha))))
    · exact field (patternOf_error (legSettings_error_b ((fits .a).2 ha) (mt (fits .b).1 (Nat.not_le.2 hb))))
    · exact field (patternOf_error
        (legSettings_error_c ((fits .a).2 ha) ((fits .b).2 hb) (mt (fits .c).1 (Nat.not_le.2 hc))))

end Sys2Proof.Machine
end


section
/-! O18. The cross-checks of JOIN (R158). -/

namespace Sys2Proof.Machine

/-! ## The first in a list in order -/

/-- In a list in order, the least element with a property is the first one found. -/
theorem find?_least {α : Type} [Preorder α] {p : α → Bool} {x : α} (hp : p x = true) {l : List α}
    (sorted : l.Pairwise (· < ·)) (hx : x ∈ l) (least : ∀ y ∈ l, y < x → p y = false) : l.find? p = some x := by
  induction l with
  | nil => cases hx
  | cons y ys ih =>
    obtain ⟨before, sorted⟩ := List.pairwise_cons.1 sorted
    rcases List.mem_cons.1 hx with rfl | hx
    · exact List.find?_cons_of_pos hp
    · have skip : p y = false := least y List.mem_cons_self (before x hx)
      rw [List.find?_cons_of_neg (by simp [skip])]
      exact ih sorted hx fun z hz => least z (List.mem_cons_of_mem y hz)

theorem mem_hostProfiles (p : Fin 8) : p ∈ hostProfiles ↔ p ≠ 0 := by revert p; decide

theorem hostProfiles_sorted : hostProfiles.Pairwise (· < ·) := by decide

/-! ## The three tests (R158) -/

/-- The first test: a LINK entry has been written, its cycle length is in range, and the station is one of its stations. -/
def LinkPasses (l : LinkTable) (n : StationNo) : Prop :=
  l.valid = true ∧ 32 + 176 * countOf l.count ≤ l.cycleLength ∧ l.cycleLength ≤ 8191 ∧ n.val < countOf l.count

/-- The profile fails the second test. -/
def profileRejected (t : Tables) (p : Fin 8) : Bool := t.profiles[p].configured && profileFails t.link t.profiles[p]

/-- The PATTERN entry fails the third test under a profile that plays it. -/
def entryRejected (t : Tables) (e : Nat) : Bool :=
  hostProfiles.any fun p => plays t.profiles[p] e && entryOutside t.link t.profiles[p] (t.pattern.toList.getD e allOff)

theorem firstInvalid_link {t : Tables} {n : StationNo} (h : ¬LinkPasses t.link n) : firstInvalid t n = some 0 := by
  refine if_pos ?_
  by_contra passes
  simp only [Bool.or_eq_true, Bool.not_eq_true', decide_eq_true_eq, not_or, Bool.not_eq_false, not_lt, not_le] at passes
  obtain ⟨⟨⟨valid, low⟩, high⟩, station⟩ := passes
  exact h ⟨valid, low, high, station⟩

/-- Behind the first test the profiles are tested, and behind them the PATTERN entries. -/
theorem firstInvalid_eq {t : Tables} {n : StationNo} (h : LinkPasses t.link n) : firstInvalid t n =
    ((hostProfiles.find? (profileRejected t)).map (64 + ·.val)).or
      (((List.range 64).find? (entryRejected t)).map (192 + ·)) := by
  obtain ⟨valid, low, high, station⟩ := h
  unfold firstInvalid
  rw [if_neg (by simp [valid]; omega)]
  show (match hostProfiles.find? (profileRejected t) with | some p => _ | none => _) = _
  cases hostProfiles.find? (profileRejected t) <;> rfl

theorem firstInvalid_eq_none_iff {t : Tables} {n : StationNo} (h : LinkPasses t.link n) : firstInvalid t n = none ↔
    (∀ i : Fin 8, i ≠ 0 → ¬profileRejected t i = true) ∧ ∀ e : Fin 64, ¬entryRejected t e.val = true := by
  simp only [firstInvalid_eq h, Option.or_eq_none_iff, Option.map_eq_none_iff, List.find?_eq_none, mem_hostProfiles,
    List.mem_range, Fin.forall_iff (n := 64)]

theorem compareTop_eq (l : LinkTable) (p : Profile) :
    compareTop l p = if p.shape = .saw then periodOf l p else periodOf l p / 2 := by
  unfold compareTop; cases p.shape <;> rfl

theorem profileFails_eq_false_iff (l : LinkTable) (p : Profile) : profileFails l p = false ↔
    periodOf l p % 2 = 0 ∧ (p.shape = .saw → periodOf l p ≤ 65535 ∧ p.loadSetting = .valley) ∧
      (p.shape = .triangle → periodOf l p / 2 ≤ 65535) := by
  unfold profileFails
  cases p.shape <;> simp

theorem entryOutside_iff (l : LinkTable) (p : Profile) (e : PerLeg LegSetting) : entryOutside l p e = true ↔
    ¬(e.a.compare.toNat ≤ compareTop l p ∧ e.b.compare.toNat ≤ compareTop l p ∧ e.c.compare.toNat ≤ compareTop l p) := by
  simp only [entryOutside, decide_eq_true_eq]; omega

theorem entryRejected_iff (t : Tables) (e : Fin 64) : entryRejected t e.val = true ↔
    ∃ i : Fin 8, i ≠ 0 ∧ t.profiles[i].configured = true ∧ t.profiles[i].source = .pattern ∧
      (t.profiles[i].patternStart ≤ e.val ∧ e.val < t.profiles[i].patternStart + t.profiles[i].patternLength) ∧
      entryOutside t.link t.profiles[i] t.pattern[e] = true := by
  have entry : t.pattern.toList.getD e.val allOff = t.pattern[e] := by simp
  simp only [entryRejected, entry, List.any_eq_true, mem_hostProfiles, plays, Bool.and_eq_true, beq_iff_eq,
    decide_eq_true_eq, and_assoc]

/-- Settles O18: the tests one behind the other, each naming the lowest entry that fails it. -/
theorem joinCrossChecks : Obligations.JoinCrossChecks := by
  intro t n linkPasses period profilePasses top played entryPasses entryFails
  have topIs (p : Profile) : compareTop t.link p = top p := compareTop_eq t.link p
  have profile (i : Fin 8) : profileRejected t i = true ↔ t.profiles[i].configured = true ∧ ¬profilePasses t.profiles[i] := by
    rw [profileRejected, Bool.and_eq_true, ← Bool.not_eq_false (profileFails _ _), profileFails_eq_false_iff]; rfl
  have entry (e : Fin 64) : entryRejected t e.val = true ↔ entryFails e := by
    rw [entryRejected_iff]
    simp only [entryOutside_iff, topIs]; rfl
  refine ⟨?_, firstInvalid_link, fun i link ne configured fails before => ?_, fun e link profiles fails before => ?_⟩
  · by_cases link : linkPasses
    · simp only [firstInvalid_eq_none_iff link, profile, entry]
      constructor
      · rintro ⟨profiles, entries⟩
        exact ⟨link, fun i ne configured => ⟨by_contra fun fails => profiles i ne ⟨configured, fails⟩,
          fun source e plays => by_contra fun fails => entries e ⟨i, ne, configured, source, plays, fails⟩⟩⟩
      · rintro ⟨-, passes⟩
        exact ⟨fun i ne ⟨configured, fails⟩ => fails (passes i ne configured).1,
          fun e ⟨i, ne, configured, source, plays, fails⟩ => fails ((passes i ne configured).2 source e plays)⟩
    · exact iff_of_false (by rw [firstInvalid_link link]; nofun) fun h => link h.1
  · have found : hostProfiles.find? (profileRejected t) = some i :=
      find?_least ((profile i).2 ⟨configured, fails⟩) hostProfiles_sorted ((mem_hostProfiles i).2 ne) fun j hj lower =>
        Bool.eq_false_iff.2 fun rejected =>
          ((profile j).1 rejected).2 (before j lower ((mem_hostProfiles j).1 hj) ((profile j).1 rejected).1)
    rw [firstInvalid_eq link, found]; rfl
  · have none : hostProfiles.find? (profileRejected t) = none := List.find?_eq_none.2 fun i hi rejected =>
      ((profile i).1 rejected).2 (profiles i ((mem_hostProfiles i).1 hi) ((profile i).1 rejected).1)
    have found : (List.range 64).find? (entryRejected t) = some e.val :=
      find?_least ((entry e).2 fails) List.pairwise_lt_range (List.mem_range.2 e.isLt) fun y hy lower =>
        Bool.eq_false_iff.2 fun rejected => before ⟨y, List.mem_range.1 hy⟩ lower ((entry ⟨y, List.mem_range.1 hy⟩).1 rejected)
    rw [firstInvalid_eq link, none, found]; rfl

end Sys2Proof.Machine
end

section
/-! SUPPORT. Registers and reports as numbers, byte by byte: every field in its place (R161, R163, R172). -/

namespace Sys2Proof.Machine

/-! ## Codes (R156, R161, R172) -/

theorem toNat_stateCode (st : StationState) : (stateCode st).toNat = match st with
    | .offline => 0 | .listening => 1 | .joined => 2 | .running => 3 | .tripped => 4 := by cases st <;> rfl

theorem toNat_stateDetail (st : StationState) : (stateDetail st).toNat = (stateCode st).toNat := by cases st <;> rfl

theorem toNat_natByte (n : Nat) : (natByte n).toNat = n % 256 := BitVec.toNat_ofNat n 8

/-- A field narrower than a byte, with zeros above it, keeps its number. -/
theorem toNat_pad {n m : Nat} (x : BitVec n) : (0#m ++ x).toNat = x.toNat := by simp

/-- The index of a first cause, 15 with none, fits its four bits. -/
theorem causeIndex_elim_lt (c : Option Cause) : c.elim 15 (fun c => (causeIndex c).val) < 16 := by
  cases c with
  | none => decide
  | some c => exact Nat.lt_trans (causeIndex c).isLt (by decide)

/-- The flag of HOST is the ninth bit of a cause set (R156). -/
theorem toNat_flag_host (causes : BitVec 9) : (flag (hasCause .host causes)).toNat = causes.toNat / 256 := by
  revert causes; decide +kernel

theorem toNat_lowCauses (causes : BitVec 9) : (causes.extractLsb' 0 8).toNat = causes.toNat % 256 := by
  simp [BitVec.extractLsb'_toNat]

/-! ## Registers (R161) -/

theorem toNat_statusBytes (s : State) : (statusBytes s).map (·.toNat) =
    [(stateCode s.station).toNat + 8 * (slotCode s.change.slot.state).toNat + 32 * (flag s.change.hold).toNat +
        64 * (flag (trpnLow s)).toNat + 128 * (flag s.trip.settling).toNat,
      (flag s.trip.faults[0].asserted).toNat + 2 * (flag s.trip.faults[1].asserted).toNat +
        4 * (flag s.trip.faults[2].asserted).toNat + 8 * (flag s.trip.faults[3].asserted).toNat +
        16 * (s.setpoint.queue.length % 8),
      s.host.reports.length % 32] := by
  simp only [statusBytes, List.map_cons, List.map_nil, toNat_pack, BitVec.toNat_ofNat, List.cons.injEq, and_true]
  omega

theorem toNat_viewBytes (s : State) : (viewBytes s).map (·.toNat) =
    [s.change.view.toNat % 256, s.change.view.toNat / 256, s.change.profile.toNat] := by
  simp only [viewBytes, List.map_cons, List.map_nil, toNat_lowByte, toNat_highByte, toNat_pad]

theorem toNat_tripRecordBytes (s : State) : (tripRecordBytes s).map (·.toNat) =
    [s.trip.causes.toNat % 256,
      s.trip.causes.toNat / 256 + 2 * (flag s.trip.drive).toNat + 16 * s.trip.first.elim 15 (fun c => (causeIndex c).val),
      s.trip.entry.toNat % 256, s.trip.entry.toNat / 256] := by
  have index := causeIndex_elim_lt s.trip.first
  simp only [tripRecordBytes, List.map_cons, List.map_nil, toNat_pack, toNat_lowByte, toNat_highByte, toNat_lowCauses,
    toNat_flag_host, BitVec.toNat_ofNat, List.cons.injEq, true_and, and_true]
  omega

/-- Past the window there is no register. -/
theorem registerBytes_past {address : BitVec 7} (h : 0x1A ≤ address) (s : State) : registerBytes s address = [] := by
  unfold registerBytes
  iterate 12 rw [if_neg (by bv_omega)]

/-! ## Report entries (R172) -/

theorem toNat_reportBytes (r : Report) : (reportBytes r).toList.map (·.toNat) =
    [(bodyBytes r.body).1.toNat, (flag r.gap).toNat, r.cycle.toNat % 256, r.cycle.toNat / 256, r.subject.val,
      (bodyBytes r.body).2.1.toNat, (bodyBytes r.body).2.2.1.toNat, (bodyBytes r.body).2.2.2.toNat] := by
  simp only [reportBytes, Vector.toList_mk, List.map_cons, List.map_nil, toNat_pad, toNat_lowByte, toNat_highByte,
    toNat_natByte, Nat.mod_eq_of_lt (Nat.lt_trans r.subject.isLt (by decide : 16 < 256))]

/-- The sequence bits of an unassigned sequence are 0 (log entry 28). -/
theorem toNat_closedSlot (sequence : Option SequenceNo) (remote automatic : Bool) :
    (flag sequence.isNone ++ flag automatic ++ flag remote ++ 0#1 ++ sequence.getD 0#4).toNat =
      (sequence.getD 0#4).toNat + 32 * (flag remote).toNat + 64 * (flag automatic).toNat +
        128 * (flag sequence.isNone).toNat := by
  simp only [toNat_pack, BitVec.toNat_ofNat]
  omega

theorem toNat_clearedCauses (first : Option Cause) (causes : BitVec 9) :
    (0#3 ++ flag (hasCause .host causes) ++ BitVec.ofNat 4 (first.elim 15 fun c => (causeIndex c).val)).toNat =
      first.elim 15 (fun c => (causeIndex c).val) + 16 * (causes.toNat / 256) := by
  have index := causeIndex_elim_lt first
  simp only [toNat_pack, toNat_flag_host, BitVec.toNat_ofNat]
  omega

end Sys2Proof.Machine
end

section
/-! Register writes and the read-only registers (O11), and the posting of a report (O14). -/

namespace Sys2Proof.Machine

/-! ## The codes of COMMAND (R162) -/

theorem commandStep_unknown {code : Byte} (h : ¬code < 0x0E#8) (s : State) :
    commandStep code s = issue code (setResult .refusedUnknown code) s := by
  unfold commandStep
  iterate 14 rw [if_neg (by bv_omega)]

theorem commandOf_unknown {code : Byte} (h : ¬code < 0x0E#8) : commandOf code = .unknownCommand code := by
  unfold commandOf
  iterate 14 rw [if_neg (by bv_omega)]

/-- A code has the step of the command that it issues. -/
theorem exec_commandOf (code : Byte) (s : State) : exec (commandOf code) s = whilePowered s (commandStep code) := by
  by_cases known : code < 0x0E#8
  · obtain ⟨n, rfl⟩ : ∃ n : Fin 14, code = BitVec.ofNat 8 n.val := ⟨⟨code.toNat, known⟩, by simp⟩
    match n with
    | 0 | 1 | 2 | 3 | 4 | 5 | 6 | 7 | 8 | 9 | 10 | 11 | 12 | 13 => rfl
  · rw [commandOf_unknown known, funext (commandStep_unknown known)]
    exact if_neg known

/-- The address of the byte `i` of eight registers in a row. -/
theorem toNat_address {base : Nat} {address : BitVec 7} {i : Fin 8} (h : address = BitVec.ofNat 7 (base + i.val))
    (hb : base ≤ 0x0E) : address.toNat = base + i.val := by
  rw [h, BitVec.toNat_ofNat]; omega

theorem setIfInBounds_fin {α : Type} {n : Nat} (v : Vector α n) (i : Fin n) (a : α) :
    v.setIfInBounds i.val a = v.set i.val a :=
  Vector.ext fun j hj => by rw [Vector.getElem_setIfInBounds hj, Vector.getElem_set]

/-! ## The other registers (R161) -/

section
variable {address : BitVec 7} {i : Fin 8} {s : State}

theorem writeRegister_arg (h : address.toNat = 0x04 + i.val) (value : Byte) : writeRegister address value s =
    { s with host := { s.host with args := s.host.args.set i.val value } } := by
  unfold writeRegister
  rw [if_pos (by bv_omega), h, Nat.add_sub_cancel_left, setIfInBounds_fin]

theorem writeRegister_tdata (h : address.toNat = 0x0E + i.val) (value : Byte) : writeRegister address value s =
    { s with host := { s.host with tdata := s.host.tdata.set i.val value } } := by
  unfold writeRegister
  iterate 3 rw [if_neg (by bv_omega)]
  rw [if_pos (by bv_omega), h, Nat.add_sub_cancel_left, setIfInBounds_fin]

theorem writeRegister_discards (h : address < 0x03 ∨ 0x16 ≤ address) (value : Byte) : writeRegister address value s = s := by
  unfold writeRegister
  iterate 4 rw [if_neg (by bv_omega)]

theorem registerBytes_arg (h : address.toNat = 0x04 + i.val) : registerBytes s address = [s.host.args[i]] := by
  unfold registerBytes
  iterate 4 rw [if_neg (by bv_omega)]
  rw [if_pos (by bv_omega), h]
  simp

theorem registerBytes_tdata (h : address.toNat = 0x0E + i.val) : registerBytes s address = [s.host.tdata[i]] := by
  unfold registerBytes
  iterate 7 rw [if_neg (by bv_omega)]
  rw [if_pos (by bv_omega), h]
  simp

theorem writable_cases (low : 0x04 ≤ address) (high : address ≤ 0x15) :
    (∃ i : Fin 8, address.toNat = 0x04 + i.val) ∨ address = 0x0C ∨ address = 0x0D ∨
      ∃ i : Fin 8, address.toNat = 0x0E + i.val := by
  by_cases arg : address ≤ 0x0B
  · exact .inl ⟨⟨address.toNat - 0x04, by bv_omega⟩, by dsimp only; bv_omega⟩
  by_cases tsel : address = 0x0C
  · exact .inr (.inl tsel)
  by_cases tidx : address = 0x0D
  · exact .inr (.inr (.inl tidx))
  · exact .inr (.inr (.inr ⟨⟨address.toNat - 0x0E, by bv_omega⟩, by dsimp only; bv_omega⟩))

/-- A writable register holds the byte (R161). -/
theorem registerBytes_writeRegister (low : 0x04 ≤ address) (high : address ≤ 0x15) (value : Byte) :
    registerBytes (writeRegister address value s) address = [value] := by
  rcases writable_cases low high with ⟨i, h⟩ | rfl | rfl | ⟨i, h⟩
  · rw [registerBytes_arg h, writeRegister_arg h]; simp
  · rfl
  · rfl
  · rw [registerBytes_tdata h, writeRegister_tdata h]; simp

end

theorem exec_registerWrite {address : BitVec 7} {s : State} (ne : address ≠ 0x03) (value : Byte) (hp : s.pins.rstn = true) :
    exec (.registerWrite address value) s = .next (writeRegister address value s) :=
  (whilePowered_on _ hp).trans (by rw [if_neg ne])

/-- Settles O11: a code issues its command, the read-only registers by their numbers, and the writes address by address. -/
theorem registerWriteStoresOrIssues : Obligations.RegisterWriteStoresOrIssues := by
  refine ⟨fun code s => (exec_commandOf code s).symm, fun s => ?_, fun address value s hp => ?_⟩
  · intro one state slot fault bytes
    have oneIs (b : Bool) : (flag b).toNat = one b := toNat_flag b
    have stateIs : (stateCode s.station).toNat = state := toNat_stateCode s.station
    have slotIs : (slotCode s.change.slot.state).toNat = slot := toNat_slotCode s.change.slot.state
    refine ⟨rfl, ?_, rfl, rfl, ?_, toNat_viewBytes s, ?_, fun address h => ?_⟩
    · refine (toNat_statusBytes s).trans ?_
      simp only [oneIs, stateIs, slotIs]
      rfl
    · simp only [← toNat_lowByte, ← toNat_highByte]; rfl
    · refine (toNat_tripRecordBytes s).trans ?_
      simp only [oneIs]
      cases s.trip.first <;> rfl
    · exact congrArg _ (registerBytes_past h s)
  · refine ⟨fun i h => ?_, fun h => ?_, fun h => ?_, fun i h => ?_, fun low high => ?_, fun h => ?_⟩
    · have there := toNat_address h (by decide)
      rw [exec_registerWrite (by bv_omega) value hp, writeRegister_arg there]
    · subst h; exact exec_registerWrite (by decide) value hp
    · subst h; exact exec_registerWrite (by decide) value hp
    · have there := toNat_address h (by decide)
      rw [exec_registerWrite (by bv_omega) value hp, writeRegister_tdata there]
    · exact ⟨_, exec_registerWrite (by bv_omega) value hp, registerBytes_writeRegister low high value⟩
    · rw [exec_registerWrite (by bv_omega) value hp, writeRegister_discards h]

/-! ## The report queue (R169) -/

/-- Settles O14: what `arrive` makes of the queue below 16 entries and at 16. -/
theorem postingAppendsOrMarksGap : Obligations.PostingAppendsOrMarksGap := by
  intro body subject s
  refine ⟨fun room => arrive_of_lt room _, fun full => ?_, rfl⟩
  have marked : (post body subject s).host.reports = markGap s.host.reports := arrive_of_full full.ge _
  rw [marked]
  refine ⟨(length_markGap _).trans full, fun i _ => ?_⟩
  rw [getElem?_markGap, full]
  simp only [Nat.reduceEqDiff]

end Sys2Proof.Machine
end

section
/-! SUPPORT. Reads of REPORT (R170, R171), and the SPI port: a whole byte, the edges of the clock, and both in a tick (R160). -/

namespace Sys2Proof.Machine

/-! ## Reads of REPORT (R170, R171) -/

theorem exec_reportRead {s : State} (hp : s.pins.rstn = true) : exec .reportRead s = .next (readReport s) :=
  whilePowered_on _ hp

/-- A read that no transfer has begun takes the oldest entry, or the zeros of an empty queue. -/
theorem readReport_unlatched {s : State} (h : s.host.port.entry = none) : readReport s =
    { s with host := { s.host with latch := reportWindow s, reports := s.host.reports.tail } } := by
  unfold readReport; rw [h]

theorem readReport_latched {s : State} {bytes : Vector Byte 8} {stored : Bool}
    (h : s.host.port.entry = some (bytes, stored)) : readReport s = { s with host := { s.host with
      latch := bytes, port := { s.host.port with entry := none }
      reports := if stored then s.host.reports.tail else s.host.reports } } := by
  unfold readReport; rw [h]

theorem reportWindow_nil {s : State} (h : s.host.reports = []) : reportWindow s = Vector.replicate 8 0 := by
  unfold reportWindow; rw [h]

theorem reportWindow_cons {s : State} {r : Report} {rest : List Report} (h : s.host.reports = r :: rest) :
    reportWindow s = reportBytes r := by
  unfold reportWindow; rw [h]

theorem irqnLow_iff {s : State} (hp : s.pins.rstn = true) : irqnLow s = true ↔ s.host.reports ≠ [] := by
  simp [irqnLow, hp]

/-! ## Bytes of a register -/

/-- The register sizes of the window, by the number of the address (R161). -/
theorem registerSize_eq {a : BitVec 7} (h : a ≤ 0x19) : registerSize a = match a.toNat with
    | 0x00 => 2 | 0x01 => 3 | 0x02 => 2 | 0x16 => 8 | 0x17 => 2 | 0x18 => 3 | 0x19 => 4 | _ => 1 := by
  revert a; decide +kernel

/-- Inside the window the bytes follow one another register by register, and REPORT follows itself (R160). -/
theorem data_followingByte {a : BitVec 7} (h : a ≤ 0x19) (o : Nat) (data : BitVec 7 → Nat → Transfer) :
    data (followingByte a o).1 (followingByte a o).2 =
      if o + 1 < registerSize a then data a (o + 1) else if a = 0x16 then data a 0 else data (a + 1) 0 := by
  unfold followingByte
  rw [if_pos h]
  split
  · rfl
  · split <;> rfl

theorem registerSize_past {a : BitVec 7} (h : 0x1A ≤ a) : registerSize a = 0 := by
  unfold registerSize
  iterate 8 rw [if_neg (by bv_omega)]

/-- Past the window no byte is of a register any more. -/
theorem followingByte_past {a : BitVec 7} (h : 0x1A ≤ a) (o : Nat) : followingByte a o = (a, 0) := by
  unfold followingByte
  rw [registerSize_past h]
  iterate 3 rw [if_neg (by bv_omega)]

/-! ## A whole byte (R160, R162, R170) -/

theorem endByte_data {data : BitVec 7 → Nat → Transfer} (kind : data = .read ∨ data = .write) (a : BitVec 7) (o : Nat)
    (value : Byte) : (endByte (data a o) value).1 = data (followingByte a o).1 (followingByte a o).2 := by
  rcases kind with rfl | rfl <;> rfl

theorem commandOf_mem_endByte (o : Nat) (value : Byte) : commandOf value ∈ (endByte (.write 0x03 o) value).2 :=
  List.mem_singleton.2 rfl

theorem registerWrite_mem_endByte {a : BitVec 7} (ne : a ≠ 0x03) (o : Nat) (value : Byte) :
    .registerWrite a value ∈ (endByte (.write a o) value).2 := List.mem_singleton.2 (if_neg ne).symm

/-- The eighth byte of REPORT completes its read. -/
theorem reportRead_mem_endByte (o : Nat) (value : Byte) : .reportRead ∈ (endByte (.read 0x16 o) value).2 ↔ o = 7 := by
  simp [endByte]

/-! ## Edges of the clock (R160) -/

section
variable {s : State}

theorem tickPort_deselected (h : s.pins.csn = true) :
    tickPort s = (setPort { SpiPort.rest with clock := s.pins.sck } s, []) := if_pos h

variable (hs : s.pins.csn = false) (hsel : s.host.port.selected = true)
include hs hsel

theorem tickPort_rising (hc : s.host.port.clock = false) (hk : s.pins.sck = true) :
    tickPort s = sampleBit (setPort { s.host.port with clock := true } s) := by
  unfold tickPort; simp [hs, hsel, hc, hk]

theorem tickPort_falling (hc : s.host.port.clock = true) (hk : s.pins.sck = false) :
    tickPort s = (shiftOut (setPort { s.host.port with clock := false } s), []) := by
  unfold tickPort; simp [hs, hsel, hc, hk]

end

/-- The bits sampled with one more of SDI. -/
def shiftedIn (s : State) : Byte := s.host.port.shift * 2 + (if s.pins.sdi then 1 else 0)

theorem shiftedIn_eq (s : State) : (s.host.port.shift <<< 1) ||| (if s.pins.sdi then 1 else 0) = shiftedIn s := by
  have all : ∀ (x : Byte) (b : Bool), (x <<< 1) ||| (if b then 1 else 0) = x * 2 + (if b then 1 else 0) := by decide +kernel
  exact all _ _

theorem sampleBit_bit {s : State} (h : s.host.port.count < 7) : sampleBit s =
    (setPort { s.host.port with count := s.host.port.count + 1, shift := shiftedIn s } s, []) := by
  unfold sampleBit; dsimp only; rw [if_pos h, shiftedIn_eq]

theorem sampleBit_byte {s : State} (h : s.host.port.count = 7) : sampleBit s =
    (setPort { s.host.port with
        count := 0, shift := 0, transfer := (endByte s.host.port.transfer (shiftedIn s)).1 } s,
      (endByte s.host.port.transfer (shiftedIn s)).2) := by
  unfold sampleBit; dsimp only; rw [if_neg (by omega), shiftedIn_eq]

theorem shiftOut_command {s : State} (h : s.host.port.transfer = .command) :
    shiftOut s = setPort { s.host.port with out := false } s := by
  unfold shiftOut; rw [h]

/-- The falling edge before a register's first byte latches it, and SDO takes its first bit. -/
theorem shiftOut_begins {s : State} {a : BitVec 7} (h : s.host.port.transfer = .read a 0) (hc : s.host.port.count = 0) :
    shiftOut s = setPort { s.host.port with
      latched := registerBytes s a
      entry := if a = 0x16 then some (reportWindow s, !s.host.reports.isEmpty) else s.host.port.entry
      out := ((registerBytes s a).getD 0 0).getLsbD 7 } s := by
  have begins : registerBegins s.host.port = true := by simp [registerBegins, h, hc]
  unfold shiftOut; rw [h]; dsimp only; rw [if_pos begins, latchRegister]
  simp [hc, setPort]

theorem shiftOut_continues {s : State} {a : BitVec 7} {o : Nat} (h : s.host.port.transfer = .read a o)
    (hc : 0 < s.host.port.count ∨ 0 < o) : shiftOut s =
      setPort { s.host.port with out := (s.host.port.latched.getD o 0).getLsbD (7 - s.host.port.count) } s := by
  have begins : ¬registerBegins s.host.port = true := by
    simp only [registerBegins, h, Bool.and_eq_true, beq_iff_eq]; omega
  unfold shiftOut; rw [h]; dsimp only; rw [if_neg begins]

/-! ## The port in a tick -/

theorem tick_port {s : State} (hp : s.pins.rstn = true) : (tick s).host.port = (tickPort (beginTick s)).1.host.port := by
  obtain ⟨n, after⟩ := tick_after_line hp
  obtain ⟨m, line⟩ := tickLine_eq (tickPort (beginTick s)).1
  have linked : tickLinked s = (tickLine (tickPort (beginTick s)).1).1 := rfl
  rw [after, linked, line]

theorem tick_pins {s : State} (hp : s.pins.rstn = true) : (tick s).pins = s.pins := by
  obtain ⟨p, m, line⟩ := tickLinked_eq s
  obtain ⟨n, after⟩ := tick_after_line hp
  rw [after, line]

theorem sdo_tick {s : State} (hp : s.pins.rstn = true) (hs : s.pins.csn = false) :
    sdo (tick s) = some (tickPort (beginTick s)).1.host.port.out := by
  rw [sdo, tick_pins hp, if_pos ⟨hp, hs⟩, tick_port hp]

theorem mem_tick_port {s : State} {c : Instr} (hp : s.pins.rstn = true) (hc : origin c = .host) :
    c ∈ (tick s).pending ↔ c ∈ (tickPort (beginTick s)).2 := by
  rw [mem_tick_iff hp, hc]; rfl

/-! ## An edge of the clock in a tick -/

section
variable {s : State} (hp : s.pins.rstn = true) (hs : s.pins.csn = false) (hsel : s.host.port.selected = true)

section
variable (hc : s.host.port.clock = false) (hk : s.pins.sck = true)
include hs hsel hc hk

include hp in
theorem tick_rising_bit (h : s.host.port.count < 7) : (tick s).host.port =
      { s.host.port with clock := true, count := s.host.port.count + 1, shift := shiftedIn s } := by
  rw [tick_port hp, tickPort_rising (s := beginTick s) hs hsel hc hk]
  exact congrArg (·.1.host.port) (sampleBit_bit (s := setPort { s.host.port with clock := true } (beginTick s)) h)

/-- The eighth rising edge ends the byte, which brings its commands. -/
theorem tickPort_rising_byte (h : s.host.port.count = 7) :
    tickPort (beginTick s) = (setPort { s.host.port with
        clock := true, count := 0, shift := 0, transfer := (endByte s.host.port.transfer (shiftedIn s)).1 } (beginTick s),
      (endByte s.host.port.transfer (shiftedIn s)).2) :=
  (tickPort_rising (s := beginTick s) hs hsel hc hk).trans
    (sampleBit_byte (s := setPort { s.host.port with clock := true } (beginTick s)) h)

end

section
variable (hc : s.host.port.clock = true) (hk : s.pins.sck = false)
include hp hs hsel hc hk

theorem tick_falling :
    (tick s).host.port = (shiftOut (setPort { s.host.port with clock := false } (beginTick s))).host.port := by
  rw [tick_port hp, tickPort_falling (s := beginTick s) hs hsel hc hk]; rfl

theorem tick_falling_command (ht : s.host.port.transfer = .command) :
    (tick s).host.port = { s.host.port with clock := false, out := false } :=
  (tick_falling hp hs hsel hc hk).trans (congrArg (·.host.port)
    (shiftOut_command (s := setPort { s.host.port with clock := false } (beginTick s)) ht))

/-- The register latched is that of the station before the tick. -/
theorem tick_falling_begins {a : BitVec 7}
    (ht : s.host.port.transfer = .read a 0) (h0 : s.host.port.count = 0) : (tick s).host.port = { s.host.port with
      clock := false
      latched := registerBytes s a
      entry := if a = 0x16 then some (reportWindow s, !s.host.reports.isEmpty) else s.host.port.entry
      out := ((registerBytes s a).getD 0 0).getLsbD 7 } :=
  (tick_falling hp hs hsel hc hk).trans (congrArg (·.host.port)
    (shiftOut_begins (s := setPort { s.host.port with clock := false } (beginTick s)) ht h0))

theorem tick_falling_continues {a : BitVec 7} {o : Nat}
    (ht : s.host.port.transfer = .read a o) (h0 : 0 < s.host.port.count ∨ 0 < o) : (tick s).host.port = { s.host.port with
      clock := false, out := (s.host.port.latched.getD o 0).getLsbD (7 - s.host.port.count) } :=
  (tick_falling hp hs hsel hc hk).trans (congrArg (·.host.port)
    (shiftOut_continues (s := setPort { s.host.port with clock := false } (beginTick s)) ht h0))

end

end

end Sys2Proof.Machine
end

section
/-! Reads of REPORT, the SPI port, and the bytes of every report (O13). -/

namespace Sys2Proof.Machine

/-- Settles O13: a read by what the port has latched, the edges of the clock one by one, and a report by the codes in it. -/
theorem reportReadPopsOldest : Obligations.ReportReadPopsOldest := by
  refine ⟨fun s hp => ⟨fun r rest unlatched queue => ?_, fun unlatched empty => ?_, fun bytes stored latched => ?_⟩, ?_, ?_⟩
  · refine ⟨_, exec_reportRead hp, ?_, ?_⟩
    · rw [readReport_unlatched unlatched, reportWindow_cons queue, queue]; rfl
    · rw [readReport_unlatched unlatched, queue]; exact irqnLow_iff hp
  · rw [exec_reportRead hp, readReport_unlatched unlatched, reportWindow_nil empty, empty, List.tail_nil, ← empty]
  · rw [exec_reportRead hp, readReport_latched latched]
  -- The SPI port: CSn high, a rising edge inside a byte and at its end, a falling edge.
  · intro s hp _ _ p value size
    refine ⟨fun hs => ⟨?_, ?_⟩, fun hs hsel hc hk => ⟨fun h => tick_rising_bit hp hs hsel hc hk h, fun h => ?_⟩,
      fun hs hsel hc hk _ => ?_⟩
    · simp [sdo, hs]
    · rw [tick_port hp, tickPort_deselected (s := beginTick s) hs]; rfl
    · have byte := tickPort_rising_byte hs hsel hc hk h
      have port := (tick_port hp).trans (congrArg (·.1.host.port) byte)
      have brings {c : Instr} (hc : origin c = .host) : c ∈ (tick s).pending ↔ c ∈ (endByte p.transfer value).2 :=
        (mem_tick_port hp hc).trans (by rw [byte]; rfl)
      have transfer : (tick s).host.port.transfer = (endByte p.transfer value).1 := by rw [port]; rfl
      refine ⟨by rw [port]; rfl, by rw [sdo_tick hp hs, byte]; rfl, fun ht => ?_, fun o ht => ?_, fun a o ne ht => ?_,
        fun o ht => ?_, fun a o data kind ht => ?_⟩
      · rw [transfer, ht]; rfl
      · rw [brings (origin_commandOf value), ht]; exact commandOf_mem_endByte o value
      · rw [brings rfl, ht]; exact registerWrite_mem_endByte ne o value
      · rw [brings rfl, ht]; exact reportRead_mem_endByte o value
      · rw [transfer, ht, endByte_data kind]
        refine ⟨fun within => ?_, fun past => ⟨a, 0, past, by rw [followingByte_past past]⟩⟩
        rw [data_followingByte within o data, show size a = registerSize a from (registerSize_eq within).symm]
    · have out {b : Bool} (h : (tick s).host.port.out = b) : sdo (tick s) = some b := by
        rw [sdo_tick hp hs, ← tick_port hp, h]
      refine ⟨fun ht => out (by rw [tick_falling_command hp hs hsel hc hk ht]), fun a ht h0 => ?_, fun a o ht h0 => ?_⟩
      · have port := tick_falling_begins hp hs hsel hc hk ht h0
        exact ⟨by rw [port], out (by rw [port]), fun ha => by rw [port]; exact if_pos ha⟩
      · have port := tick_falling_continues hp hs hsel hc hk ht h0
        exact ⟨by rw [port], by rw [port], out (by rw [port])⟩
  -- The bytes of a report: the codes of the statement are those of the model, and two details pack fields of their own.
  · rintro ⟨body, gap, cycle, subject⟩ flag slot index kind verdict state advertised left mismatch outcome reason details
    have flagIs (b : Bool) : (Machine.flag b).toNat = flag b := toNat_flag b
    have stateIs (st : StationState) : (stateCode st).toNat = state st := toNat_stateCode st
    have verdictIs (v : Option Verdict) : (ownVerdictCode v).toNat = verdict v := toNat_ownVerdictCode v
    have advertisedIs (st : AdvState) : (advCode st).toNat = advertised st := by cases st <;> rfl
    have kindIs (k : Option MismatchKind) : (kindByte k).toNat = kind k := by rcases k with _ | _ | _ <;> rfl
    have leftIs (c : WithdrawalCause) : (withdrawalByte c).toNat = left c := by cases c <;> rfl
    have mismatchIs (why : LinkMismatchReason) : (mismatchByte why).toNat = mismatch why := by cases why <;> rfl
    have outcomeIs (o : ChangeOutcome) : (outcomeByte o).toNat = outcome o := by cases o <;> rfl
    have reasonIs (why : CloseReason) : (reasonByte why).toNat = reason why := by
      cases why with
      | refusal v => cases v <;> rfl
      | notice c => cases c <;> rfl
      | _ => rfl
    rw [toNat_reportBytes]
    cases body with
    | changeClosed o sequence remote automatic why =>
      simp only [bodyBytes, details, slot, toNat_closedSlot, ← toNat_sequence, ← flagIs, ← outcomeIs, ← reasonIs,
        BitVec.ofNat_eq_ofNat, BitVec.toNat_ofNat, List.getD_cons_zero, List.getD_cons_succ, List.cons.injEq, true_and, and_true]
      omega
    | tripCleared first causes cycles =>
      have bound := causeIndex_elim_lt first
      simp only [bodyBytes, details, index, toNat_clearedCauses, toNat_natByte, toNat_lowCauses, ← flagIs,
        BitVec.ofNat_eq_ofNat, BitVec.toNat_ofNat, List.getD_cons_zero, List.getD_cons_succ, List.cons.injEq, true_and, and_true]
      omega
    | _ =>
      simp only [bodyBytes, details, slot, causeByte, toNat_natByte, toNat_pack, toNat_stateDetail, toNat_lowByte,
        toNat_highByte, ← flagIs, ← stateIs, ← verdictIs, ← advertisedIs, ← kindIs, ← leftIs, ← mismatchIs,
        BitVec.ofNat_eq_ofNat, BitVec.toNat_ofNat, List.getD_cons_zero, List.getD_cons_succ,
        List.cons.injEq, true_and, and_true] <;> omega

end Sys2Proof.Machine
end
